-- ==== Sys2Proof/Word.lean ====
section
/-! DEFINITION. The words of this machine: bit strings, sample ranges, captures and input records
(`00_scope.md` R5 to R7, `30_encoding.md` R40, R41). -/

namespace Sys2Proof

/-- A bit string (R5): position 0 is the most significant bit and the last bit shifted; `true` is the character `1`. -/
abbrev BitString := List Bool

/-- A 5-bit Instruction Register pattern, as compared by the catalog (R4 `IR_WIDTH` = 5, R52). -/
abbrev Pattern := BitVec 5

/-- A sample range `(start, end)` (R7); sample numbers are unbounded naturals (R4, D33). -/
structure SampleRange where
  ss : Nat
  es : Nat
deriving DecidableEq, Repr, Inhabited

/-- The payload of a format-B record as the front end delivers it (R40): the characters, most significant first, and
one sample range per character in the same order. Nothing is checked yet. -/
structure RawCapture where
  chars : List Char
  ranges : List SampleRange
deriving DecidableEq, Repr, Inhabited

/-- A classified capture: the bit string, unchanged, and the sample ranges `sr` in shift order, so that `sr[i]` belongs
to value bit `i` (R7, R73). -/
structure Capture where
  bits : BitString
  sr : List SampleRange
deriving DecidableEq, Repr, Inhabited

/-- `in`: a value shifted into the Data Register (TDI); `out`: a value shifted out of it (TDO) (R71). -/
inductive Dir where
  | inbound
  | outbound
deriving DecidableEq, Repr

/-- An input record (R40): one constructor per command kind of R41, and the three command codes that name no kind
(`reserved k` is code `5 + k`). -/
inductive Record where
  /-- STATE_CHANGE: a TAP-state name and the range over which the state was entered. -/
  | stateChange (name : String) (rng : SampleRange)
  | irTdi (p : RawCapture)
  | irTdo (p : RawCapture)
  | drTdi (p : RawCapture)
  | drTdo (p : RawCapture)
  /-- A record whose command code is 0b101, 0b110 or 0b111 (R41, R72). -/
  | reserved (k : Fin 3) (p : RawCapture)
deriving DecidableEq, Repr

/-- The two decode errors (`60_exceptions.md` R127 causes 1 and 2, R128, R129). -/
inductive BitfieldError where
  /-- "slice requested is empty or nonsensical" -/
  | malformedField
  /-- "slice exceeds captured bit length" -/
  | outOfRange
deriving DecidableEq, Repr

end Sys2Proof
end

