-- ==== Sys2Proof/Config.lean ====
section
/-! DEFINITION. What is fixed before the first record (`00_scope.md` R4): the types of the configuration, the logical
states and symbols it is indexed by, and the model's one free value. The default values stand in
`Machine/Catalog.lean`. -/

namespace Sys2Proof

/-- The closed set of ten Logical Decoder States (R9). -/
inductive LState where
  | idle | reset | bypass | idcode | abort | unknown | dtmcs | dmi | dpacc | apacc
deriving DecidableEq, Repr

/-- What the 4-bit `ls` register can hold (R21): one of the ten states, or one of the six codes 10 to 15 that are no
state (`spare k` is code `10 + k`). -/
inductive Ls where
  | known (x : LState)
  | spare (k : Fin 6)
deriving DecidableEq, Repr

/-- The closed set of Instruction Register symbols (R10, R53). -/
inductive Symbol where
  | bypass | idcode | abort | unknown | dtmcs | dmi | dpacc | apacc
deriving DecidableEq, Repr

/-- One value for each logical state, as plain data. -/
structure PerState (α : Type) where
  idle : α
  reset : α
  bypass : α
  idcode : α
  abort : α
  unknown : α
  dtmcs : α
  dmi : α
  dpacc : α
  apacc : α
deriving DecidableEq, Repr

/-- The value for one state. -/
def PerState.get {α : Type} (p : PerState α) : LState → α
  | .idle => p.idle
  | .reset => p.reset
  | .bypass => p.bypass
  | .idcode => p.idcode
  | .abort => p.abort
  | .unknown => p.unknown
  | .dtmcs => p.dtmcs
  | .dmi => p.dmi
  | .dpacc => p.dpacc
  | .apacc => p.apacc

/-- One line of `IRCAT` (R52): pattern, symbol, expected width. The width is returned by the lookup and read by no rule
(D39). -/
structure IrEntry where
  pattern : Pattern
  symbol : Symbol
  width : Nat
deriving DecidableEq, Repr

/-- One line of `DMICAT` (R56): address, name, human description. -/
structure DmiEntry where
  addr : Nat
  name : String
  descr : String
deriving DecidableEq, Repr

/-- One value for each symbol, as plain data. -/
structure PerSymbol (α : Type) where
  bypass : α
  idcode : α
  abort : α
  unknown : α
  dtmcs : α
  dmi : α
  dpacc : α
  apacc : α
deriving DecidableEq, Repr

/-- The value for one symbol. -/
def PerSymbol.get {α : Type} (p : PerSymbol α) : Symbol → α
  | .bypass => p.bypass
  | .idcode => p.idcode
  | .abort => p.abort
  | .unknown => p.unknown
  | .dtmcs => p.dtmcs
  | .dmi => p.dmi
  | .dpacc => p.dpacc
  | .apacc => p.apacc

/-- The texts of the field labels (R123): the source spells out none of them (N20, D23). -/
structure LabelTexts where
  reserved : String
  continuationCode : String
  identityCode : String
  manufacturer : String
  part : String
  version : String
  dapabort : String
  data : String
  address : String
  readWrite : String
  ack : String
  abits : String
  dmistat : String
  idle : String
  dmireset : String
  dmihardreset : String
  op : String
deriving DecidableEq, Repr

/-- `TXT` (R4, U19): the text pieces that the source leaves open (`45_emitter.md` R123, R125, and the `<dir>` words of
R124). The pieces that the source gives are constants of `Machine/Text.lean`. -/
structure Txt where
  /-- the labels of the fields of each register (R123, D23) -/
  labels : PerSymbol LabelTexts
  /-- between a field's label and its value (R123, D23) -/
  fieldSep : String
  /-- text of `State(x)` (R125) -/
  stateName : PerState String
  /-- the `<dir>` word of an inbound record (D28) -/
  dirIn : String
  /-- the `<dir>` word of an outbound record (D28) -/
  dirOut : String
  dtmcsVersion : String
  dtmcsAbits : String
  dtmcsDmistat : String
  dtmcsIdle : String
  dtmcsDmireset : String
  dtmcsDmihardreset : String
  /-- between `<dir>` and the integer of a raw dmi capture -/
  dmiRaw : String
  warnAbort : String
  degradedOpen : String
  degradedMid : String
  /-- the name of an error in a degraded text (R125, D24) -/
  malformedField : String
  outOfRange : String
  degradedClose : String
  unhandled : String
deriving DecidableEq, Repr

/-- The configuration `cfg` of R4, as plain data. `IRCAT` and `DMICAT` are lists of which the first matching entry
counts. -/
structure Config where
  irCat : List IrEntry
  irAbort : Option Pattern
  irDpacc : Option Pattern
  irApacc : Option Pattern
  dmiCat : List DmiEntry
  leadStrip : PerState Nat
  resetName : String
  txt : Txt
deriving DecidableEq, Repr

/-- FREE VALUE (DESIGN CHOICE, log entry 4): the text of a state annotation that names a spare `ls` code. The spec
names texts for the ten states only (R125). No body: nothing can be proved of it. -/
opaque Config.spareStateName : Fin 6 → String

end Sys2Proof
end

