-- ==== Sys2Proof/Machine/Operands.lean ====
section
/-! DEFINITION. The Bitfield Primitives (`41_bitfield.md` R60 to R70), the value view of a capture (`00_scope.md` R6), its
sample ranges (R7, R74, R120), lead-bit stripping (`43_tracker.md` R93) and the rendering of numbers and bits. -/

namespace Sys2Proof.Machine

/-- `val(s)` of R6: the sum over positions `k` of `bit(s[k]) * 2^(L-1-k)`. -/
def val : BitString → Nat
  | [] => 0
  | b :: s => b.toNat * 2 ^ s.length + val s

/-- `v[hi:lo]` of R6: `(v >> lo) mod 2^(hi-lo+1)` (the total arithmetic that R70 allows behind a length test). -/
def field (s : BitString) (hi lo : Nat) : Nat :=
  val s / 2 ^ lo % 2 ^ (hi - lo + 1)

/-- `norm(L, i)` of R60: a negative index counts from the end. -/
def normIndex (len : Nat) (i : Int) : Int :=
  if 0 ≤ i then i else (len : Int) + i

/-- `slice(s, start, end)` of R62; `stop` is exclusive. Range is tested before order (R61, D31). -/
def slice (s : BitString) (start stop : Int) : Except BitfieldError BitString :=
  let a := normIndex s.length start
  let b := normIndex s.length stop
  if a < 0 ∨ a > s.length ∨ b < 0 ∨ b > s.length then .error .outOfRange
  else if a > b then .error .malformedField
  else .ok ((s.take b.toNat).drop a.toNat)

/-- `toUnsignedInt(x)` of R63. -/
def toUnsignedInt (x : BitString) : Except BitfieldError Nat :=
  if x.isEmpty then .error .malformedField else .ok (val x)

/-- `isAllZero(x)` of R64. -/
def isAllZero (x : BitString) : Bool :=
  x.all (fun b => !b)

/-- The hexadecimal digit of a number below 16, lower case. -/
def hexDigit (n : Nat) : Char :=
  ['0', '1', '2', '3', '4', '5', '6', '7', '8', '9', 'a', 'b', 'c', 'd', 'e', 'f'].getD n '0'

/-- The hexadecimal digits of `n`, most significant first, no leading zero (R66, D27); `fuel` bounds their number. -/
def hexDigits : Nat → Nat → List Char
  | 0, _ => []
  | fuel + 1, n => (if n < 16 then [] else hexDigits fuel (n / 16)) ++ [hexDigit (n % 16)]

/-- `hexbare(n)` of R67. -/
def hexbare (n : Nat) : String :=
  String.ofList (hexDigits (n + 1) n)

/-- `hex(n)` of R66. -/
def hex (n : Nat) : String :=
  "0x" ++ hexbare n

/-- The character of one bit of a string. -/
def bitChar (b : Bool) : Char :=
  if b then '1' else '0'

/-- `bitchar(b)` of R68, of a one-bit value. -/
def bitchar (n : Nat) : String :=
  if n = 0 then "0" else "1"

/-- `<bits>` of R69: every character, most significant first. -/
def bitsText (s : BitString) : String :=
  String.ofList (s.map bitChar)

/-- `sr[i].start` and `sr[i].end` of R7. Inside the decoders `i` is always below the length (R70). -/
def srAt (sr : List SampleRange) (i : Nat) : SampleRange :=
  sr.getD i ⟨0, 0⟩

/-- The event range `evr` of R74: from the start of the first-shifted bit to the end of the last-shifted bit. -/
def evr (c : Capture) : SampleRange :=
  ⟨(srAt c.sr 0).ss, (srAt c.sr (c.bits.length - 1)).es⟩

/-- The sample range of the field `v[hi:lo]` (R120). -/
def fieldRange (c : Capture) (hi lo : Nat) : SampleRange :=
  ⟨(srAt c.sr lo).ss, (srAt c.sr hi).es⟩

/-- Lead-bit stripping (R93): the `k` last-shifted bits are dropped, with their ranges at the top end. -/
def stripLead (k : Nat) (c : Capture) : Except BitfieldError Capture :=
  if k > c.bits.length then .error .outOfRange
  else .ok ⟨c.bits.drop k, c.sr.take (c.bits.length - k)⟩

end Sys2Proof.Machine
end

