-- ==== Sys2Proof/Machine/Catalog.lean ====
section
/-! DEFINITION. The Register Catalog (`40_catalog.md` R52 to R59), its default tables, and the tables over states that the
tracker uses: `stateOf` (R54), the one-shot class (R53), `expects` (`43_tracker.md` R93) and completion (R94). -/

namespace Sys2Proof.Machine

/-- `IR_WIDTH` of R4. -/
def irWidth : Nat := 5

/-- The 5-bit pattern that a capture spells, if its length is 5 (R52, D6). -/
def patternOf (bits : BitString) : Option Pattern :=
  if bits.length = irWidth then some (BitVec.ofNat 5 (val bits)) else none

/-- The rows of `IRCAT` alone: the first entry for the pattern. -/
def irCatAt (cat : List IrEntry) (p : Pattern) : Option (Symbol × Nat) :=
  (cat.find? (fun e => e.pattern == p)).map (fun e => (e.symbol, e.width))

/-- `irLookup(cfg, bits)` of R52. A failed lookup is a value, never an exception (R59, R133). -/
def irLookup (cfg : Config) (bits : BitString) : Symbol × Nat :=
  match patternOf bits with
  | none => (.unknown, 0)
  | some p =>
    if cfg.irAbort = some p then (.abort, 0)
    else if cfg.irDpacc = some p then (.dpacc, 0)
    else if cfg.irApacc = some p then (.apacc, 0)
    else (irCatAt cfg.irCat p).getD (.unknown, 0)

/-- `dmiLookup(cfg, addr)` of R57. No decoder calls it (R58). -/
def dmiLookup (cfg : Config) (addr : Nat) : Option (String × String) :=
  (cfg.dmiCat.find? (fun e => e.addr == addr)).map (fun e => (e.name, e.descr))

/-- `stateOf` of R54. -/
def stateOf : Symbol → LState
  | .bypass => .bypass
  | .idcode => .idcode
  | .abort => .abort
  | .unknown => .unknown
  | .dtmcs => .dtmcs
  | .dmi => .dmi
  | .dpacc => .dpacc
  | .apacc => .apacc

/-- The one-shot symbols of R53; the others, dtmcs and dmi, are continuous. -/
def oneShot : Symbol → Bool
  | .dtmcs => false
  | .dmi => false
  | .bypass => true
  | .idcode => true
  | .abort => true
  | .unknown => true
  | .dpacc => true
  | .apacc => true

/-- `expects(x)` of R93: does the decoder of `x` decode this direction? `Idle` and `Reset` have no decoder. -/
def expects : LState → Dir → Bool
  | .idle, _ => false
  | .reset, _ => false
  | .bypass, d => d == .inbound
  | .idcode, d => d == .outbound
  | .abort, d => d == .inbound
  | .unknown, d => d == .inbound
  | .dpacc, _ => true
  | .apacc, _ => true
  | .dtmcs, _ => true
  | .dmi, _ => true

/-- Does a dispatched record of this direction complete the transaction (R94)? -/
def completes : LState → Dir → Bool
  | .idle, _ => false
  | .reset, _ => false
  | .bypass, _ => true
  | .idcode, _ => true
  | .abort, _ => true
  | .unknown, _ => true
  | .dpacc, d => d == .outbound
  | .apacc, d => d == .outbound
  | .dtmcs, _ => false
  | .dmi, _ => false

/-- The constraints that every admissible catalog meets (R55), as far as the types do not give them. -/
def admissible (cfg : Config) : Bool :=
  cfg.irCat.all (fun e => e.symbol != .unknown || e.width == 0) &&
  (cfg.irAbort.isNone || (cfg.irAbort != cfg.irDpacc && cfg.irAbort != cfg.irApacc)) &&
  (cfg.irDpacc.isNone || cfg.irDpacc != cfg.irApacc)

/-- Default `IRCAT` (R52; general knowledge by the spec's own mark G1, log entry 6). -/
def defaultIrCat : List IrEntry :=
  [⟨0b00001, .idcode, 32⟩, ⟨0b10000, .dtmcs, 32⟩, ⟨0b10001, .dmi, 0⟩, ⟨0b11111, .bypass, 1⟩, ⟨0b00000, .bypass, 1⟩]

/-- An entry whose description is its name (R56). -/
def dmiEntry (addr : Nat) (name : String) : DmiEntry :=
  ⟨addr, name, name⟩

/-- A run of registers that are numbered from 0 at consecutive addresses. -/
def dmiRun (base count : Nat) (stem : String) : List DmiEntry :=
  (List.range count).map (fun i => dmiEntry (base + i) (stem ++ toString i))

/-- Default `DMICAT` (R56; general knowledge by the spec's own mark G3, log entry 6). -/
def defaultDmiCat : List DmiEntry :=
  dmiRun 0x04 12 "data" ++
  [dmiEntry 0x10 "dmcontrol", dmiEntry 0x11 "dmstatus", dmiEntry 0x12 "hartinfo", dmiEntry 0x13 "haltsum1",
   dmiEntry 0x14 "hawindowsel", dmiEntry 0x15 "hawindow", dmiEntry 0x16 "abstractcs", dmiEntry 0x17 "command",
   dmiEntry 0x18 "abstractauto"] ++
  dmiRun 0x19 4 "confstrptr" ++
  [dmiEntry 0x1d "nextdm"] ++
  dmiRun 0x20 16 "progbuf" ++
  [dmiEntry 0x30 "authdata", dmiEntry 0x34 "haltsum2", dmiEntry 0x35 "haltsum3", dmiEntry 0x37 "sbaddress3",
   dmiEntry 0x38 "sbcs", dmiEntry 0x39 "sbaddress0", dmiEntry 0x3a "sbaddress1", dmiEntry 0x3b "sbaddress2",
   dmiEntry 0x3c "sbdata0", dmiEntry 0x3d "sbdata1", dmiEntry 0x3e "sbdata2", dmiEntry 0x3f "sbdata3",
   dmiEntry 0x40 "haltsum0"]

/-- Default `LEAD_STRIP` (R4, D19). -/
def defaultLeadStrip : PerState Nat :=
  ⟨0, 0, 0, 0, 0, 0, 0, 0, 0, 0⟩

/-- Default field labels (R123): the field names of the layout tables. -/
def defaultLabels : LabelTexts where
  reserved := "reserved"
  continuationCode := "continuation-code"
  identityCode := "identity-code"
  manufacturer := "manufacturer"
  part := "part"
  version := "version"
  dapabort := "DAPABORT"
  data := "data"
  address := "address"
  readWrite := "read/write"
  ack := "ack"
  abits := "abits"
  dmistat := "dmistat"
  idle := "idle"
  dmireset := "dmireset"
  dmihardreset := "dmihardreset"
  op := "op"

/-- Default texts (R123, R125, and the `<dir>` words of R124). -/
def defaultTxt : Txt where
  labels := ⟨defaultLabels, defaultLabels, defaultLabels, defaultLabels, defaultLabels, defaultLabels, defaultLabels,
    defaultLabels⟩
  fieldSep := ": "
  stateName := ⟨"Idle", "Reset", "Bypass", "Idcode", "Abort", "Unknown", "Dtmcs", "Dmi", "Dpacc", "Apacc"⟩
  dirIn := "in"
  dirOut := "out"
  dtmcsVersion := "in dtmcs: version: "
  dtmcsAbits := " abits: "
  dtmcsDmistat := " dmistat: "
  dtmcsIdle := " idle: "
  dtmcsDmireset := "out dtmcs: dmireset: "
  dtmcsDmihardreset := " dmihardreset: "
  dmiRaw := " raw: "
  warnAbort := "WARNING: ABORT bits 31:1 reserved, must be zero"
  degradedOpen := "UNKNOWN ("
  degradedMid := ", "
  malformedField := "MalformedField"
  outOfRange := "OutOfRange"
  degradedClose := "): "
  unhandled := "Unhandled state: "

/-- The default configuration of R4: `IR_ABORT`, `IR_DPACC`, `IR_APACC` are open and default to `none`. -/
def defaultConfig : Config where
  irCat := defaultIrCat
  irAbort := none
  irDpacc := none
  irApacc := none
  dmiCat := defaultDmiCat
  leadStrip := defaultLeadStrip
  resetName := "reset"
  txt := defaultTxt

end Sys2Proof.Machine
end

