-- ==== Sys2Proof/Machine/Codes.lean ====
section
/-! DEFINITION. The binary codes of states, symbols, the sentinel, command kinds and abnormal conditions (`10_state.md` R21,
`30_encoding.md` R41, `60_exceptions.md` R127; all by the spec's decision D32). -/

namespace Sys2Proof.Machine

/-- The code of a state (R21). -/
def stateCode : LState → BitVec 4
  | .idle => 0
  | .reset => 1
  | .bypass => 2
  | .idcode => 3
  | .abort => 4
  | .unknown => 5
  | .dtmcs => 6
  | .dmi => 7
  | .dpacc => 8
  | .apacc => 9

/-- The code that the `ls` register holds (R21): codes 10 to 15 are no state. -/
def lsCode : Ls → BitVec 4
  | .known x => stateCode x
  | .spare k => BitVec.ofNat 4 (10 + k.val)

/-- What a 4-bit code means as an `ls` value. -/
def lsOfCode (c : BitVec 4) : Ls :=
  match c.toNat with
  | 0 => .known .idle
  | 1 => .known .reset
  | 2 => .known .bypass
  | 3 => .known .idcode
  | 4 => .known .abort
  | 5 => .known .unknown
  | 6 => .known .dtmcs
  | 7 => .known .dmi
  | 8 => .known .dpacc
  | 9 => .known .apacc
  | n => .spare ⟨(n - 10) % 6, Nat.mod_lt _ (by decide)⟩

/-- The code of a symbol (R21). -/
def symbolCode : Symbol → BitVec 3
  | .bypass => 0
  | .idcode => 1
  | .abort => 2
  | .unknown => 3
  | .dtmcs => 4
  | .dmi => 5
  | .dpacc => 6
  | .apacc => 7

/-- The code of the sentinel (R21): bit 4 is "valid", bits 3 to 0 an `ls` code. DESIGN CHOICE (log entry 25): R21 leaves bits 3 to
0 open while bit 4 is 0, and the model puts 0000 there. -/
def lastCode : Option Ls → BitVec 5
  | none => 0
  | some x => 1#1 ++ lsCode x

/-- The command code of a record (R41); the reserved codes are 5, 6 and 7. -/
def cmdCode : Record → BitVec 3
  | .stateChange _ _ => 0b000
  | .irTdi _ => 0b001
  | .irTdo _ => 0b010
  | .drTdi _ => 0b011
  | .drTdo _ => 0b100
  | .reserved k _ => BitVec.ofNat 3 (5 + k.val)

/-- The complete list of abnormal conditions (R127). -/
inductive AbnormalCause where
  | malformedField
  | outOfRange
  | invalidRange
  | unrecognizedRegister
  | reservedBitWarning
  | unhandledState
  | malformedRecord
deriving DecidableEq, Repr

/-- The code number of a condition (R127). -/
def causeCode : AbnormalCause → Nat
  | .malformedField => 1
  | .outOfRange => 2
  | .invalidRange => 3
  | .unrecognizedRegister => 4
  | .reservedBitWarning => 5
  | .unhandledState => 6
  | .malformedRecord => 7

/-- The condition that a decode error is (R127). -/
def causeOf : BitfieldError → AbnormalCause
  | .malformedField => .malformedField
  | .outOfRange => .outOfRange

end Sys2Proof.Machine
end

