-- ==== Sys2Proof/Syntax.lean ====
section
/-! DEFINITION. The instructions: one constructor per row of `spec/opcode_table.json` (`30_encoding.md` R42). Two rows
that share a mnemonic are two constructors. The operands of a row are those of its record: a range and (where the row
does not fix it) a name for format S, a classified capture for an accepted format-B record, the untouched payload for a
dropped one. -/

namespace Sys2Proof

inductive Instr where
  /-- ST.RESET, word `0001` (R81) -/
  | stReset (rng : SampleRange)
  /-- ST.OTHER, word `0000` (R82) -/
  | stOther (name : String) (rng : SampleRange)
  /-- IR.DTMCS, word `001` and a pattern that the catalog maps to dtmcs (R84) -/
  | irDtmcs (c : Capture)
  /-- IR.DMI (R85) -/
  | irDmi (c : Capture)
  /-- IR.BYPASS, the row of pattern `11111`: any pattern mapped to BYPASS but `00000` (R86) -/
  | irBypass (c : Capture)
  /-- IR.BYPASS, the row of pattern `00000` (R86) -/
  | irBypassZero (c : Capture)
  /-- IR.IDCODE (R87) -/
  | irIdcode (c : Capture)
  /-- IR.ABORT (R88) -/
  | irAbort (c : Capture)
  /-- IR.DPACC (R89) -/
  | irDpacc (c : Capture)
  /-- IR.APACC (R90) -/
  | irApacc (c : Capture)
  /-- IR.UNKNOWN: the fallback, and every IR capture whose length is not 5 (R91) -/
  | irUnknown (c : Capture)
  /-- IR_TDO, word `010`: dropped (R77) -/
  | irTdo (p : RawCapture)
  /-- DR.IDLE, word `0110000` (R97) -/
  | driIdle (c : Capture)
  /-- DR.IDLE, word `1000000` (R97) -/
  | droIdle (c : Capture)
  /-- DR.RESET, word `0110001` (R98) -/
  | driReset (c : Capture)
  /-- DR.RESET, word `1000001` (R98) -/
  | droReset (c : Capture)
  /-- DRI.BYPASS, word `0110010` (R99) -/
  | driBypass (c : Capture)
  /-- DRO.BYPASS, word `1000010` (R100) -/
  | droBypass (c : Capture)
  /-- DRI.IDCODE, word `0110011` (R102) -/
  | driIdcode (c : Capture)
  /-- DRO.IDCODE, word `1000011` (R101) -/
  | droIdcode (c : Capture)
  /-- DRI.ABORT, word `0110100` (R103) -/
  | driAbort (c : Capture)
  /-- DRO.ABORT, word `1000100` (R104) -/
  | droAbort (c : Capture)
  /-- DRI.UNKNOWN, word `0110101` (R105) -/
  | driUnknown (c : Capture)
  /-- DRO.UNKNOWN, word `1000101` (R106) -/
  | droUnknown (c : Capture)
  /-- DRI.DTMCS, word `0110110` (R111) -/
  | driDtmcs (c : Capture)
  /-- DRO.DTMCS, word `1000110` (R112) -/
  | droDtmcs (c : Capture)
  /-- DRI.DMI, word `0110111` (R113) -/
  | driDmi (c : Capture)
  /-- DRO.DMI, word `1000111` (R114) -/
  | droDmi (c : Capture)
  /-- DRI.DPACC, word `0111000` (R107) -/
  | driDpacc (c : Capture)
  /-- DRO.DPACC, word `1001000` (R108) -/
  | droDpacc (c : Capture)
  /-- DRI.APACC, word `0111001` (R109) -/
  | driApacc (c : Capture)
  /-- DRO.APACC, word `1001001` (R110) -/
  | droApacc (c : Capture)
  /-- DR.UNHANDLED, word `0111xxx` with a state code of 10 or more, `10 + k` (R95) -/
  | driUnhandled (k : Fin 6) (c : Capture)
  /-- DR.UNHANDLED, word `1001xxx` with a state code of 10 or more, `10 + k` (R95) -/
  | droUnhandled (k : Fin 6) (c : Capture)
  /-- DROP.RESERVED, word `1rr`, command code `5 + k` (R72) -/
  | dropReserved (k : Fin 3) (p : RawCapture)
deriving DecidableEq, Repr

end Sys2Proof
end

