-- ==== Sys2Proof/WellFormed.lean ====
section
/-! DEFINITION. Which instructions are well formed: those that some input record selects under a configuration and a
dispatch state (`30_encoding.md` R42). -/

namespace Sys2Proof

/-- A capture that the classifier can produce (R72): at least one bit, and one range per bit. -/
def Capture.wellFormed (c : Capture) : Bool :=
  !c.bits.isEmpty && c.sr.length == c.bits.length

/-- An IR capture that the catalog maps to `sym` (R83). -/
def irWellFormed (cfg : Config) (sym : Symbol) (c : Capture) : Bool :=
  c.wellFormed && (Machine.irLookup cfg c.bits).1 == sym

/-- A DR capture that is dispatched in the state `x` (R93). -/
def drWellFormed (sel x : Ls) (c : Capture) : Bool :=
  c.wellFormed && sel == x

/-- The pattern of the second IR.BYPASS row. -/
def zeroPattern : BitString := [false, false, false, false, false]

/-- Well-formedness under the configuration `cfg` and the dispatch state `sel` (the `sel` field of R42). -/
def Instr.wellFormed (cfg : Config) (sel : Ls) : Instr → Bool
  | .stReset _ => true
  | .stOther name _ => name != cfg.resetName
  | .irDtmcs c => irWellFormed cfg .dtmcs c
  | .irDmi c => irWellFormed cfg .dmi c
  | .irBypass c => irWellFormed cfg .bypass c && c.bits != zeroPattern
  | .irBypassZero c => irWellFormed cfg .bypass c && c.bits == zeroPattern
  | .irIdcode c => irWellFormed cfg .idcode c
  | .irAbort c => irWellFormed cfg .abort c
  | .irDpacc c => irWellFormed cfg .dpacc c
  | .irApacc c => irWellFormed cfg .apacc c
  | .irUnknown c => irWellFormed cfg .unknown c
  | .irTdo _ => true
  | .driIdle c => drWellFormed sel (.known .idle) c
  | .droIdle c => drWellFormed sel (.known .idle) c
  | .driReset c => drWellFormed sel (.known .reset) c
  | .droReset c => drWellFormed sel (.known .reset) c
  | .driBypass c => drWellFormed sel (.known .bypass) c
  | .droBypass c => drWellFormed sel (.known .bypass) c
  | .driIdcode c => drWellFormed sel (.known .idcode) c
  | .droIdcode c => drWellFormed sel (.known .idcode) c
  | .driAbort c => drWellFormed sel (.known .abort) c
  | .droAbort c => drWellFormed sel (.known .abort) c
  | .driUnknown c => drWellFormed sel (.known .unknown) c
  | .droUnknown c => drWellFormed sel (.known .unknown) c
  | .driDtmcs c => drWellFormed sel (.known .dtmcs) c
  | .droDtmcs c => drWellFormed sel (.known .dtmcs) c
  | .driDmi c => drWellFormed sel (.known .dmi) c
  | .droDmi c => drWellFormed sel (.known .dmi) c
  | .driDpacc c => drWellFormed sel (.known .dpacc) c
  | .droDpacc c => drWellFormed sel (.known .dpacc) c
  | .driApacc c => drWellFormed sel (.known .apacc) c
  | .droApacc c => drWellFormed sel (.known .apacc) c
  | .driUnhandled k c => drWellFormed sel (.spare k) c
  | .droUnhandled k c => drWellFormed sel (.spare k) c
  | .dropReserved _ _ => true

end Sys2Proof
end

