-- ==== Sys2Proof/Decode.lean ====
section
/-! DEFINITION. From records to instructions and back: the Event Classifier (`42_classifier.md` R71 to R78), the selection of
an operation by command kind, catalog symbol or dispatch state (`30_encoding.md` R42), the encoder, and the dispatch
words of `spec/opcode_table.json`. -/

namespace Sys2Proof

/-- Why a record is dropped without being an instruction: the three malformations of a format-B record (R72). The two
other drops, IR_TDO (R77) and the reserved command codes (R72), are rows of the opcode table and so instructions. -/
inductive DecodeError where
  | emptyCapture
  | lengthMismatch
  | notABit
deriving DecidableEq, Repr

/-- The canonical TAP event (R71). The event range of the three bit-carrying variants is `Machine.evr` of the capture. -/
inductive TapEvent where
  | stateChange (name : String) (rng : SampleRange)
  | irLoad (c : Capture)
  | drShiftIn (c : Capture)
  | drShiftOut (c : Capture)
deriving DecidableEq, Repr

/-- One character of a bit string (R5, R72). -/
def parseBit (ch : Char) : Option Bool :=
  if ch = '0' then some false else if ch = '1' then some true else none

/-- The characters of a format-B record as bits, if each is one (R72). -/
def parseBits : List Char → Option BitString
  | [] => some []
  | ch :: cs =>
    match parseBit ch, parseBits cs with
    | some b, some bs => some (b :: bs)
    | _, _ => none

/-- The format-B checks of R72 and the one reversal of R73; the bit string is passed on unchanged. -/
def classifyCapture (p : RawCapture) : Except DecodeError Capture :=
  if p.chars.isEmpty then .error .emptyCapture
  else if p.ranges.length ≠ p.chars.length then .error .lengthMismatch
  else
    match parseBits p.chars with
    | none => .error .notABit
    | some bits => .ok ⟨bits, p.ranges.reverse⟩

/-- `classify` of R71: `none` is a dropped record (R72, R77). -/
def classify : Record → Option TapEvent
  | .stateChange name rng => some (.stateChange name rng)
  | .irTdi p => (classifyCapture p).toOption.map .irLoad
  | .irTdo _ => none
  | .drTdi p => (classifyCapture p).toOption.map .drShiftIn
  | .drTdo p => (classifyCapture p).toOption.map .drShiftOut
  | .reserved _ _ => none

/-- The operation of a STATE_CHANGE (R75): exact equality with `RESET_NAME` (D42). -/
def selectSt (cfg : Config) (name : String) (rng : SampleRange) : Instr :=
  if name = cfg.resetName then .stReset rng else .stOther name rng

/-- The operation of an IR load, by the symbol that the catalog gives (R83). -/
def selectIr (cfg : Config) (c : Capture) : Instr :=
  match (Machine.irLookup cfg c.bits).1 with
  | .dtmcs => .irDtmcs c
  | .dmi => .irDmi c
  | .bypass => if c.bits = zeroPattern then .irBypassZero c else .irBypass c
  | .idcode => .irIdcode c
  | .abort => .irAbort c
  | .dpacc => .irDpacc c
  | .apacc => .irApacc c
  | .unknown => .irUnknown c

/-- The operation of an inbound DR record, by the dispatch state (R93, R42 format D). -/
def selectDri (sel : Ls) (c : Capture) : Instr :=
  match sel with
  | .known .idle => .driIdle c
  | .known .reset => .driReset c
  | .known .bypass => .driBypass c
  | .known .idcode => .driIdcode c
  | .known .abort => .driAbort c
  | .known .unknown => .driUnknown c
  | .known .dtmcs => .driDtmcs c
  | .known .dmi => .driDmi c
  | .known .dpacc => .driDpacc c
  | .known .apacc => .driApacc c
  | .spare k => .driUnhandled k c

/-- The operation of an outbound DR record, by the dispatch state (R93, R42 format D). -/
def selectDro (sel : Ls) (c : Capture) : Instr :=
  match sel with
  | .known .idle => .droIdle c
  | .known .reset => .droReset c
  | .known .bypass => .droBypass c
  | .known .idcode => .droIdcode c
  | .known .abort => .droAbort c
  | .known .unknown => .droUnknown c
  | .known .dtmcs => .droDtmcs c
  | .known .dmi => .droDmi c
  | .known .dpacc => .droDpacc c
  | .known .apacc => .droApacc c
  | .spare k => .droUnhandled k c

/-- The decoder: the instruction that a record is, under a configuration and the state in which a DR record would be
dispatched. Total; a malformed format-B record is rejected by name. -/
def decode (cfg : Config) (sel : Ls) : Record → Except DecodeError Instr
  | .stateChange name rng => .ok (selectSt cfg name rng)
  | .irTdi p => (classifyCapture p).map (selectIr cfg)
  | .irTdo p => .ok (.irTdo p)
  | .drTdi p => (classifyCapture p).map (selectDri sel)
  | .drTdo p => (classifyCapture p).map (selectDro sel)
  | .reserved k p => .ok (.dropReserved k p)

/-- A classified capture as the front end delivers it: characters, and the ranges in string order (R28, R40). -/
def rawOf (c : Capture) : RawCapture :=
  ⟨c.bits.map Machine.bitChar, c.sr.reverse⟩

/-- The encoder: the record of an instruction. -/
def encode (cfg : Config) : Instr → Record
  | .stReset rng => .stateChange cfg.resetName rng
  | .stOther name rng => .stateChange name rng
  | .irDtmcs c => .irTdi (rawOf c)
  | .irDmi c => .irTdi (rawOf c)
  | .irBypass c => .irTdi (rawOf c)
  | .irBypassZero c => .irTdi (rawOf c)
  | .irIdcode c => .irTdi (rawOf c)
  | .irAbort c => .irTdi (rawOf c)
  | .irDpacc c => .irTdi (rawOf c)
  | .irApacc c => .irTdi (rawOf c)
  | .irUnknown c => .irTdi (rawOf c)
  | .irTdo p => .irTdo p
  | .driIdle c => .drTdi (rawOf c)
  | .droIdle c => .drTdo (rawOf c)
  | .driReset c => .drTdi (rawOf c)
  | .droReset c => .drTdo (rawOf c)
  | .driBypass c => .drTdi (rawOf c)
  | .droBypass c => .drTdo (rawOf c)
  | .driIdcode c => .drTdi (rawOf c)
  | .droIdcode c => .drTdo (rawOf c)
  | .driAbort c => .drTdi (rawOf c)
  | .droAbort c => .drTdo (rawOf c)
  | .driUnknown c => .drTdi (rawOf c)
  | .droUnknown c => .drTdo (rawOf c)
  | .driDtmcs c => .drTdi (rawOf c)
  | .droDtmcs c => .drTdo (rawOf c)
  | .driDmi c => .drTdi (rawOf c)
  | .droDmi c => .drTdo (rawOf c)
  | .driDpacc c => .drTdi (rawOf c)
  | .droDpacc c => .drTdo (rawOf c)
  | .driApacc c => .drTdi (rawOf c)
  | .droApacc c => .drTdo (rawOf c)
  | .driUnhandled _ c => .drTdi (rawOf c)
  | .droUnhandled _ c => .drTdo (rawOf c)
  | .dropReserved k p => .reserved k p

/-- The bits of a bit vector, most significant first. -/
def bitsOfVec {w : Nat} (v : BitVec w) : BitString :=
  (List.range w).map (fun i => v.getLsbD (w - 1 - i))

/-- The dispatch word of a record, most significant bit first (R42). An IR capture whose length is not 5 has no pattern
in its word: it selects IR.UNKNOWN whatever its bits. -/
def dispatchWord (cfg : Config) (sel : Ls) (r : Record) : BitString :=
  bitsOfVec (Machine.cmdCode r) ++
    match r with
    | .stateChange name _ => [decide (name = cfg.resetName)]
    | .irTdi p => if p.chars.length = Machine.irWidth then (parseBits p.chars).getD [] else []
    | .irTdo _ => []
    | .drTdi _ => bitsOfVec (Machine.lsCode sel)
    | .drTdo _ => bitsOfVec (Machine.lsCode sel)
    | .reserved _ _ => []

/-- The row of `spec/opcode_table.json` as a pattern over the dispatch word: `none` is a bit that the row leaves free
(a letter or `x` in the table, and every pattern bit that the catalog decides). -/
def opcodeRow : Instr → List (Option Bool)
  | .stReset _ => [some false, some false, some false, some true]
  | .stOther _ _ => [some false, some false, some false, some false]
  | .irDtmcs _ => [some false, some false, some true, none, none, none, none, none]
  | .irDmi _ => [some false, some false, some true, none, none, none, none, none]
  | .irBypass _ => [some false, some false, some true, none, none, none, none, none]
  | .irBypassZero _ => [some false, some false, some true, some false, some false, some false, some false, some false]
  | .irIdcode _ => [some false, some false, some true, none, none, none, none, none]
  | .irAbort _ => [some false, some false, some true, none, none, none, none, none]
  | .irDpacc _ => [some false, some false, some true, none, none, none, none, none]
  | .irApacc _ => [some false, some false, some true, none, none, none, none, none]
  | .irUnknown c =>
    if c.bits.length = Machine.irWidth then [some false, some false, some true, none, none, none, none, none]
    else [some false, some false, some true]
  | .irTdo _ => [some false, some true, some false]
  | .driIdle _ => [some false, some true, some true, some false, some false, some false, some false]
  | .droIdle _ => [some true, some false, some false, some false, some false, some false, some false]
  | .driReset _ => [some false, some true, some true, some false, some false, some false, some true]
  | .droReset _ => [some true, some false, some false, some false, some false, some false, some true]
  | .driBypass _ => [some false, some true, some true, some false, some false, some true, some false]
  | .droBypass _ => [some true, some false, some false, some false, some false, some true, some false]
  | .driIdcode _ => [some false, some true, some true, some false, some false, some true, some true]
  | .droIdcode _ => [some true, some false, some false, some false, some false, some true, some true]
  | .driAbort _ => [some false, some true, some true, some false, some true, some false, some false]
  | .droAbort _ => [some true, some false, some false, some false, some true, some false, some false]
  | .driUnknown _ => [some false, some true, some true, some false, some true, some false, some true]
  | .droUnknown _ => [some true, some false, some false, some false, some true, some false, some true]
  | .driDtmcs _ => [some false, some true, some true, some false, some true, some true, some false]
  | .droDtmcs _ => [some true, some false, some false, some false, some true, some true, some false]
  | .driDmi _ => [some false, some true, some true, some false, some true, some true, some true]
  | .droDmi _ => [some true, some false, some false, some false, some true, some true, some true]
  | .driDpacc _ => [some false, some true, some true, some true, some false, some false, some false]
  | .droDpacc _ => [some true, some false, some false, some true, some false, some false, some false]
  | .driApacc _ => [some false, some true, some true, some true, some false, some false, some true]
  | .droApacc _ => [some true, some false, some false, some true, some false, some false, some true]
  | .driUnhandled _ _ => [some false, some true, some true, some true, none, none, none]
  | .droUnhandled _ _ => [some true, some false, some false, some true, none, none, none]
  | .dropReserved _ _ => [some true, none, none]

/-- Does a word fit a row's pattern? -/
def rowFits : List (Option Bool) → BitString → Bool
  | [], [] => true
  | none :: ps, _ :: bs => rowFits ps bs
  | some p :: ps, b :: bs => p == b && rowFits ps bs
  | _, _ => false

/-- The `n` low bits of a number, most significant first. -/
def bitsOfNat (n w : Nat) : BitString :=
  (List.range n).map (fun i => w.testBit (n - 1 - i))

/-- How many bits the operand capture has that stands for "operand words of zeros" (log entry 7): 35, so that every
decoder's minimum length is met. -/
def zeroOperandBits : Nat := 35

/-- A capture in string order, its sample ranges `(0,1), (1,2), ...` in shift order. -/
def unitRangeCapture (bits : BitString) : RawCapture :=
  ⟨bits.map Machine.bitChar, ((List.range bits.length).map (fun i => (⟨i, i + 1⟩ : SampleRange))).reverse⟩

/-- The zero operand. -/
def zeroOperand : RawCapture :=
  unitRangeCapture (List.replicate zeroOperandBits false)

/-- A TAP-state name that is not `RESET_NAME`. -/
def otherName (cfg : Config) : String :=
  if cfg.resetName = "idle" then "other" else "idle"

/-- The record that a dispatch word stands for, with zero operands, and for format D the dispatch state that its `sel`
bits name. `none`: no row begins so, or the word's length is not its format's. -/
def recordOfWord (cfg : Config) : BitString → Option (Option Ls × Record)
  | [false, false, false, r] => some (none, .stateChange (if r then cfg.resetName else otherName cfg) ⟨0, 1⟩)
  | [false, false, true, i4, i3, i2, i1, i0] => some (none, .irTdi (unitRangeCapture [i4, i3, i2, i1, i0]))
  | [false, true, false] => some (none, .irTdo zeroOperand)
  | [false, true, true, s3, s2, s1, s0] =>
    some (some (Machine.lsOfCode (BitVec.ofNat 4 (Machine.val [s3, s2, s1, s0]))), .drTdi zeroOperand)
  | [true, false, false, s3, s2, s1, s0] =>
    some (some (Machine.lsOfCode (BitVec.ofNat 4 (Machine.val [s3, s2, s1, s0]))), .drTdo zeroOperand)
  | [true, false, true] => some (none, .reserved 0 zeroOperand)
  | [true, true, false] => some (none, .reserved 1 zeroOperand)
  | [true, true, true] => some (none, .reserved 2 zeroOperand)
  | _ => none

/-- The record that a table word of `nbits` bits stands for. The table's words have 3, 4, 7 or 8 bits; a width rounded up
to whole bytes is read as the longest of them that names a row (log entry 7). -/
def recordOfTableWord (cfg : Config) (nbits w : Nat) : Option (Option Ls × Record) :=
  ([8, 7, 4, 3].filter (fun n => n ≤ nbits && w < 2 ^ n)).findSome? (fun n => recordOfWord cfg (bitsOfNat n w))

/-- The instruction that the decoder reads from a table word, under the default configuration. -/
def decodeTableWord (nbits w : Nat) : Option Instr :=
  match recordOfTableWord Machine.defaultConfig nbits w with
  | none => none
  | some (sel, r) => (decode Machine.defaultConfig (sel.getD (.known .idle)) r).toOption

end Sys2Proof
end

