-- ==== Sys2Proof/Machine/State.lean ====
section
/-! DEFINITION. The output records (`30_encoding.md` R43), the state of the core (`10_state.md` R9 to R14), the reasons a step
can stop, and the power-on state (R20, R143). -/

namespace Sys2Proof.Machine

/-- The six annotation channels (R43, R117). -/
inductive Channel where
  | item | field | command | warning | state | diagnostic
deriving DecidableEq, Repr

/-- The field labels (`45_emitter.md` R123). -/
inductive FieldLabel where
  | reserved | continuationCode | identityCode | manufacturer | part | version
  | dapabort
  | data | address | readWrite | ack
  | abits | dmistat | idle | dmireset | dmihardreset
  | op
deriving DecidableEq, Repr

/-- The command-level payloads `Cmd(reg, dir, ...)` (R43, R124, R125). `reg` of the two access payloads is DPACC or
APACC. -/
inductive Command where
  | idcode (mf ver pt : Nat)
  | abort (da : Nat)
  | accessIn (reg : Symbol) (data a rnw : Nat)
  | accessOut (reg : Symbol) (data ack : Nat)
  | dtmcsIn (ver ab st idl : Nat)
  | dtmcsOut (dr dh : Nat)
  | dmiSplit (dir : Dir) (op ad data : Nat)
  | dmiRaw (dir : Dir) (n : Nat)
  | unknown (s : BitString)
deriving DecidableEq, Repr

/-- The structured payload of an annotation (R43). -/
inductive Payload where
  | state (x : Ls)
  | item (s : BitString)
  | field (reg : Symbol) (dir : Dir) (label : FieldLabel) (value hi lo : Nat)
  | cmd (c : Command)
  | warnAbortReserved (value : Nat)
  | degraded (x : LState) (e : BitfieldError) (s : BitString)
  | unhandled (k : Fin 6)
deriving DecidableEq, Repr

/-- An annotation record (R43, R116). -/
structure Annotation where
  ss : Nat
  es : Nat
  ch : Channel
  text : List String
  payload : Payload
deriving DecidableEq, Repr

/-- The state of the core, with the configuration and the records not yet taken (log entries 1 and 2). -/
structure State where
  /-- the configuration: constant (R4, R15) -/
  cfg : Config
  /-- the Logical Decoder State (R9, R21) -/
  ls : Ls
  /-- the most recently loaded Instruction Register symbol (R10) -/
  irsym : Symbol
  /-- a one-shot transition is owed to the next DR record (R11) -/
  armed : Bool
  /-- the state named by the most recent state annotation (R12) -/
  last : Option Ls
  /-- the sticky InvalidRange flag (R13) -/
  faultIr : Bool
  /-- the output trace, in emission order (R14) -/
  out : List Annotation
  /-- the delivered records that the core has not taken, oldest first (R3, R37) -/
  input : List Record
deriving DecidableEq, Repr

/-- Why the machine stops with a fault: never. "No cause halts the core" (R138); the error kinds of R127 all end in a
next state. -/
inductive Fault where
deriving DecidableEq, Repr

/-- Why a step has no meaning. -/
inductive Refusal where
  /-- Raised by an arm of `exec` whose instruction has no meaning yet; safe. No arm raises it in this model. -/
  | notModelled (mnemonic : String)
deriving DecidableEq, Repr

/-- The power-on state `s0` (R20, R143), with the default configuration (R4) and no record delivered. -/
def State.reset : State where
  cfg := defaultConfig
  ls := .known .idle
  irsym := .unknown
  armed := false
  last := none
  faultIr := false
  out := []
  input := []

end Sys2Proof.Machine
end

