-- ==== Sys2Proof/Machine/Flags.lean ====
section
/-! DEFINITION. The two one-bit registers, `armed` and `fault_ir` (`10_state.md` R11, R13, R17): nothing but these operations
writes them, and neither is a side effect of arithmetic. -/

namespace Sys2Proof.Machine

/-- A one-shot transition becomes owed to the next DR record (R86 to R91). -/
def arm (s : State) : State :=
  { s with armed := true }

/-- No transition is owed any more (R81, R84, R85, R92). -/
def disarm (s : State) : State :=
  { s with armed := false }

/-- `fault_ir <- true` (R132): sticky, no rule clears it. -/
def raiseInvalidRange (s : State) : State :=
  { s with faultIr := true }

end Sys2Proof.Machine
end

