-- ==== Sys2Proof/Machine/Text.lean ====
section
/-! DEFINITION. The channel and the text of every payload (`45_emitter.md` R117, R123 to R125). -/

namespace Sys2Proof.Machine

/-- The channel index (R43). -/
def channelIndex : Channel → Nat
  | .item => 0
  | .field => 1
  | .command => 2
  | .warning => 3
  | .state => 4
  | .diagnostic => 5

/-- The one channel on which a payload is emitted (R117). -/
def payloadChannel : Payload → Channel
  | .state _ => .state
  | .item _ => .item
  | .field _ _ _ _ _ _ => .field
  | .cmd _ => .command
  | .warnAbortReserved _ => .warning
  | .degraded _ _ _ => .diagnostic
  | .unhandled _ => .diagnostic

/-- The text of a field's label (R123), as the configuration gives it for the register. -/
def labelText (t : Txt) (reg : Symbol) : FieldLabel → String
  | .reserved => (t.labels.get reg).reserved
  | .continuationCode => (t.labels.get reg).continuationCode
  | .identityCode => (t.labels.get reg).identityCode
  | .manufacturer => (t.labels.get reg).manufacturer
  | .part => (t.labels.get reg).part
  | .version => (t.labels.get reg).version
  | .dapabort => (t.labels.get reg).dapabort
  | .data => (t.labels.get reg).data
  | .address => (t.labels.get reg).address
  | .readWrite => (t.labels.get reg).readWrite
  | .ack => (t.labels.get reg).ack
  | .abits => (t.labels.get reg).abits
  | .dmistat => (t.labels.get reg).dmistat
  | .idle => (t.labels.get reg).idle
  | .dmireset => (t.labels.get reg).dmireset
  | .dmihardreset => (t.labels.get reg).dmihardreset
  | .op => (t.labels.get reg).op

/-- The fields that render as a bit character (R68). A data or address field that happens to be one bit wide renders in
hexadecimal all the same (R107, R113). -/
def rendersAsBit : Symbol → FieldLabel → Bool
  | .idcode, .reserved => true
  | _, .dapabort => true
  | _, .readWrite => true
  | _, .dmireset => true
  | _, .dmihardreset => true
  | _, _ => false

/-- The value text of a field (R96, R123). -/
def fieldValueText (reg : Symbol) (label : FieldLabel) (value : Nat) : String :=
  if rendersAsBit reg label then bitchar value else hex value

/-- `ackName` of R108. -/
def ackName (n : Nat) : String :=
  if n = 1 then "WAIT" else if n = 2 then "OK/FAULT" else "Reserved"

/-- `dirText` of R124. -/
def dirText (t : Txt) : Dir → String
  | .inbound => t.dirIn
  | .outbound => t.dirOut

/-- The name of an error kind (R125), as the configuration gives it. -/
def errorName (t : Txt) : BitfieldError → String
  | .malformedField => t.malformedField
  | .outOfRange => t.outOfRange

/-- The name of what `ls` holds: the state's name (R125), or the free value for a spare code (log entry 4). -/
def lsName (t : Txt) : Ls → String
  | .known x => t.stateName.get x
  | .spare k => Config.spareStateName k

/-- The text of a summary (R124, R125). -/
def commandText (t : Txt) : Command → String
  | .idcode mf ver pt => "IDCODE: (" ++ hexbare mf ++ ": " ++ hexbare ver ++ "/" ++ hexbare pt ++ ")"
  | .abort da => "DAPABORT = " ++ bitchar da ++ ": " ++ (if da = 1 then "" else "No ") ++ "DAP abort generated"
  | .accessIn _ data a rnw =>
    "New transaction: DATA: " ++ hex data ++ ", A: " ++ hex a ++ ", RnW: " ++ (if rnw = 1 then "Read" else "Write") ++
      " request"
  | .accessOut _ data ack => "Previous transaction result: DATA: " ++ hex data ++ ", ACK: " ++ ackName ack
  | .dtmcsIn ver ab st idl =>
    t.dtmcsVersion ++ hex ver ++ t.dtmcsAbits ++ hex ab ++ t.dtmcsDmistat ++ hex st ++ t.dtmcsIdle ++ hex idl
  | .dtmcsOut dr dh => t.dtmcsDmireset ++ bitchar dr ++ t.dtmcsDmihardreset ++ bitchar dh
  | .dmiSplit dir op ad data =>
    dirText t dir ++ " instr: " ++ hex op ++ " addr: " ++ hex ad ++ " data: " ++ hex data
  | .dmiRaw dir n => dirText t dir ++ t.dmiRaw ++ hex n
  | .unknown s => "Unknown instruction: " ++ bitsText s

/-- The text of a payload (R123 to R125). -/
def render (t : Txt) : Payload → String
  | .state x => lsName t x
  | .item s => "BYPASS: " ++ bitsText s
  | .field reg _ label value _ _ => labelText t reg label ++ t.fieldSep ++ fieldValueText reg label value
  | .cmd c => commandText t c
  | .warnAbortReserved _ => t.warnAbort
  | .degraded x e s => t.degradedOpen ++ t.stateName.get x ++ t.degradedMid ++ errorName t e ++ t.degradedClose ++ bitsText s
  | .unhandled k => t.unhandled ++ toString (10 + k.val)

end Sys2Proof.Machine
end

