-- ==== Sys2Proof/Machine/Ops.lean ====
section
/-! DEFINITION. The named operations on the state: the emitter (`45_emitter.md` R116 to R121), `setls` (`43_tracker.md` R79), the
owed transition (R92), the completion (R94), and the one shared handling of a decode error (`60_exceptions.md` R130),
which is what this hardware has in place of taking an exception; processing resumes at the completion. -/

namespace Sys2Proof.Machine

/-- A valid range (R116): not empty and not inverted. -/
def rangeOk (r : SampleRange) : Bool :=
  decide (r.ss < r.es)

/-- The annotation record that `emit` appends (R116): one text, the rendering of the payload (D41). -/
def annotation (t : Txt) (r : SampleRange) (ch : Channel) (p : Payload) : Annotation :=
  ⟨r.ss, r.es, ch, [render t p], p⟩

/-- `emit(ss, es, ch, payload)` of R116, with the Boolean it returns. An invalid range drops the annotation and sets
`fault_ir` (R132). -/
def emit (r : SampleRange) (ch : Channel) (p : Payload) (s : State) : State × Bool :=
  if rangeOk r then ({ s with out := s.out ++ [annotation s.cfg.txt r ch p] }, true)
  else (raiseInvalidRange s, false)

/-- One annotation that a decoder body asks for: range, channel, payload. -/
structure Emission where
  rng : SampleRange
  ch : Channel
  payload : Payload
deriving DecidableEq, Repr

/-- The annotations of a decoder body, in order; an invalid range does not stop the ones after it (R116, R132). -/
def emitAll (es : List Emission) (s : State) : State :=
  es.foldl (fun t e => (emit e.rng e.ch e.payload t).1) s

/-- `emitState(range)` of R118. -/
def emitState (r : SampleRange) (s : State) : State :=
  if s.last = some s.ls then s
  else
    match emit r .state (.state s.ls) s with
    | (t, true) => { t with last := some s.ls }
    | (t, false) => t

/-- `setls(x, range)` of R79: the only way `ls` is written. -/
def setls (x : Ls) (r : SampleRange) (s : State) : State :=
  emitState r { s with ls := x }

/-- The state in which a DR record is dispatched: `ls` after the owed transition (R42, R92). -/
def dispatchState (s : State) : Ls :=
  if s.armed then .known (stateOf s.irsym) else s.ls

/-- The owed transition (R92). -/
def owedTransition (r : SampleRange) (s : State) : State :=
  if s.armed then setls (.known (stateOf s.irsym)) r (disarm s) else s

/-- What every accepted DR record does first: the event-entry annotation (R80), then the owed transition (R92). -/
def enterDr (r : SampleRange) (s : State) : State :=
  owedTransition r (emitState r s)

/-- `degrade(x, e, bits, evr)` of R130: exactly one annotation, on the diagnostic channel. -/
def degrade (x : LState) (e : BitfieldError) (bits : BitString) (r : SampleRange) (s : State) : State :=
  (emit r .diagnostic (.degraded x e bits) s).1

/-- Completion (R94): the return to Idle, whether the decode succeeded or degraded (D29). -/
def complete (x : LState) (d : Dir) (r : SampleRange) (s : State) : State :=
  if completes x d then setls (.known .idle) r s else s

/-- The common part of an IR load (R83): event entry, then `irsym`. -/
def loadSymbol (sym : Symbol) (r : SampleRange) (s : State) : State :=
  { emitState r s with irsym := sym }

/-- The whole of a one-shot IR load (R86). -/
def loadOneShot (sym : Symbol) (r : SampleRange) (s : State) : State :=
  arm (loadSymbol sym r s)

/-- The whole of a continuous IR load (R84, R85). -/
def loadContinuous (sym : Symbol) (r : SampleRange) (s : State) : State :=
  setls (.known (stateOf sym)) r (disarm (loadSymbol sym r s))

end Sys2Proof.Machine
end

