-- ==== Sys2Proof/Machine/Bodies.lean ====
section
/-! DEFINITION. The Register Decoders (`44_decoders.md` R96 to R115) as pure functions of a stripped capture and the event
range, the layouts of `30_encoding.md` R44 to R49, and the dispatch of a DR record (`43_tracker.md` R93). -/

namespace Sys2Proof.Machine

/-- `emitField(hi, lo, label, ...)` of R119. -/
def fieldOf (reg : Symbol) (d : Dir) (c : Capture) (label : FieldLabel) (hi lo : Nat) : Emission :=
  ⟨fieldRange c hi lo, .field, .field reg d label (field c.bits hi lo) hi lo⟩

/-- A summary over the event range (R119, R121). -/
def summary (r : SampleRange) (c : Command) : Emission :=
  ⟨r, .command, .cmd c⟩

/-- R99: BYPASS, inbound; the summary goes on the item channel. -/
def bodyBypass (c : Capture) (r : SampleRange) : Except BitfieldError (List Emission) :=
  .ok [⟨r, .item, .item c.bits⟩]

/-- R101: IDCODE, outbound. -/
def bodyIdcode (c : Capture) (r : SampleRange) : Except BitfieldError (List Emission) :=
  if c.bits.length < 32 then .error .outOfRange
  else .ok
    [fieldOf .idcode .outbound c .reserved 0 0,
     fieldOf .idcode .outbound c .continuationCode 11 8,
     fieldOf .idcode .outbound c .identityCode 7 1,
     fieldOf .idcode .outbound c .manufacturer 11 1,
     fieldOf .idcode .outbound c .part 27 12,
     fieldOf .idcode .outbound c .version 31 28,
     summary r (.idcode (field c.bits 11 1) (field c.bits 31 28) (field c.bits 27 12))]

/-- R103: ABORT, inbound, with the reserved-bit warning (R134). -/
def bodyAbort (c : Capture) (r : SampleRange) : Except BitfieldError (List Emission) :=
  if c.bits.length < 32 then .error .outOfRange
  else .ok
    ([fieldOf .abort .inbound c .dapabort 0 0,
      fieldOf .abort .inbound c .reserved 31 1,
      summary r (.abort (field c.bits 0 0))] ++
     if field c.bits 31 1 = 0 then [] else [⟨r, .warning, .warnAbortReserved (field c.bits 31 1)⟩])

/-- R105: UNKNOWN, inbound. -/
def bodyUnknown (c : Capture) (r : SampleRange) : Except BitfieldError (List Emission) :=
  .ok [summary r (.unknown c.bits)]

/-- R107, R109: DPACC and APACC, inbound. -/
def bodyAccessIn (reg : Symbol) (c : Capture) (r : SampleRange) : Except BitfieldError (List Emission) :=
  if c.bits.length < 3 then .error .outOfRange
  else if c.bits.length = 3 then .error .malformedField
  else .ok
    [fieldOf reg .inbound c .data (c.bits.length - 1) 3,
     fieldOf reg .inbound c .address 2 1,
     fieldOf reg .inbound c .readWrite 0 0,
     summary r (.accessIn reg (field c.bits (c.bits.length - 1) 3) (field c.bits 2 1) (field c.bits 0 0))]

/-- R108, R110: DPACC and APACC, outbound. -/
def bodyAccessOut (reg : Symbol) (c : Capture) (r : SampleRange) : Except BitfieldError (List Emission) :=
  if c.bits.length < 3 then .error .outOfRange
  else if c.bits.length = 3 then .error .malformedField
  else .ok
    [fieldOf reg .outbound c .data (c.bits.length - 1) 3,
     fieldOf reg .outbound c .ack 2 0,
     summary r (.accessOut reg (field c.bits (c.bits.length - 1) 3) (field c.bits 2 0))]

/-- R111: dtmcs, inbound. -/
def bodyDtmcsIn (c : Capture) (r : SampleRange) : Except BitfieldError (List Emission) :=
  if c.bits.length < 18 then .error .outOfRange
  else .ok
    [fieldOf .dtmcs .inbound c .version 3 0,
     fieldOf .dtmcs .inbound c .abits 9 4,
     fieldOf .dtmcs .inbound c .dmistat 11 10,
     fieldOf .dtmcs .inbound c .idle 14 12,
     summary r (.dtmcsIn (field c.bits 3 0) (field c.bits 9 4) (field c.bits 11 10) (field c.bits 14 12))]

/-- R112: dtmcs, outbound. -/
def bodyDtmcsOut (c : Capture) (r : SampleRange) : Except BitfieldError (List Emission) :=
  if c.bits.length < 18 then .error .outOfRange
  else .ok
    [fieldOf .dtmcs .outbound c .dmireset 16 16,
     fieldOf .dtmcs .outbound c .dmihardreset 17 17,
     summary r (.dtmcsOut (field c.bits 16 16) (field c.bits 17 17))]

/-- R113, R114: dmi, either direction: the split form above 34 bits, the raw form otherwise; an empty string (after
stripping) has no value (R63, R128). -/
def bodyDmi (d : Dir) (c : Capture) (r : SampleRange) : Except BitfieldError (List Emission) :=
  if 34 < c.bits.length then .ok
    [fieldOf .dmi d c .address (c.bits.length - 1) 34,
     fieldOf .dmi d c .data 33 2,
     fieldOf .dmi d c .op 1 0,
     summary r (.dmiSplit d (field c.bits 1 0) (field c.bits (c.bits.length - 1) 34) (field c.bits 33 2))]
  else
    match toUnsignedInt c.bits with
    | .error e => .error e
    | .ok n => .ok [summary r (.dmiRaw d n)]

/-- The decoder body of a state and a direction (the table of R93). The pairs without a layout have no body: the
direction filter keeps every record from them. -/
def decoderBody : LState → Dir → Capture → SampleRange → Except BitfieldError (List Emission)
  | .idle, _, _, _ => .ok []
  | .reset, _, _, _ => .ok []
  | .bypass, .inbound, c, r => bodyBypass c r
  | .bypass, .outbound, _, _ => .ok []
  | .idcode, .inbound, _, _ => .ok []
  | .idcode, .outbound, c, r => bodyIdcode c r
  | .abort, .inbound, c, r => bodyAbort c r
  | .abort, .outbound, _, _ => .ok []
  | .unknown, .inbound, c, r => bodyUnknown c r
  | .unknown, .outbound, _, _ => .ok []
  | .dtmcs, .inbound, c, r => bodyDtmcsIn c r
  | .dtmcs, .outbound, c, r => bodyDtmcsOut c r
  | .dmi, d, c, r => bodyDmi d c r
  | .dpacc, .inbound, c, r => bodyAccessIn .dpacc c r
  | .dpacc, .outbound, c, r => bodyAccessOut .dpacc c r
  | .apacc, .inbound, c, r => bodyAccessIn .apacc c r
  | .apacc, .outbound, c, r => bodyAccessOut .apacc c r

/-- Stripping, then the body (the `try` of R93); `evr` is that of the capture as received (R74, D36). -/
def tryDecode (cfg : Config) (x : LState) (d : Dir) (c : Capture) : Except BitfieldError (List Emission) :=
  match stripLead (cfg.leadStrip.get x) c with
  | .error e => .error e
  | .ok v => decoderBody x d v (evr c)

/-- A DR record in the state `x`: event entry and owed transition (R80, R92), the direction filter, the decode or its
degraded replacement (R93, R130), and the completion (R94). In `Idle` nothing more happens (R97); in `Reset` the record
is consumed (R98). -/
def dispatchDr (x : LState) (d : Dir) (c : Capture) (s : State) : State :=
  let s1 := enterDr (evr c) s
  match x with
  | .idle => s1
  | .reset => setls (.known .idle) (evr c) s1
  | x =>
    if expects x d then
      complete x d (evr c)
        (match tryDecode s.cfg x d c with
         | .ok es => emitAll es s1
         | .error e => degrade x e c.bits (evr c) s1)
    else s1

/-- A DR record in a state that is none of the ten (R95, R135). -/
def dispatchUnhandled (k : Fin 6) (c : Capture) (s : State) : State :=
  (emit (evr c) .diagnostic (.unhandled k) (enterDr (evr c) s)).1

end Sys2Proof.Machine
end

