-- ==== Sys2Proof/Machine/Decoders.lean ====
section
/-! DEFINITION. The meanings of the DR records, one per state and direction (`44_decoders.md` R97 to R114, `43_tracker.md` R95).
Each instruction names the state in which it is dispatched (`30_encoding.md` R42); the step runs it only there. -/

namespace Sys2Proof.Machine

/-- DR.IDLE, inbound (R97): ignored. -/
def execDriIdle (c : Capture) (s : State) : Host.Outcome State Fault Refusal :=
  .next (dispatchDr .idle .inbound c s)

/-- DR.IDLE, outbound (R97): ignored. -/
def execDroIdle (c : Capture) (s : State) : Host.Outcome State Fault Refusal :=
  .next (dispatchDr .idle .outbound c s)

/-- DR.RESET, inbound (R98): consumed, back to Idle. -/
def execDriReset (c : Capture) (s : State) : Host.Outcome State Fault Refusal :=
  .next (dispatchDr .reset .inbound c s)

/-- DR.RESET, outbound (R98): consumed, back to Idle. -/
def execDroReset (c : Capture) (s : State) : Host.Outcome State Fault Refusal :=
  .next (dispatchDr .reset .outbound c s)

/-- DRI.BYPASS, inbound (R99). -/
def execDriBypass (c : Capture) (s : State) : Host.Outcome State Fault Refusal :=
  .next (dispatchDr .bypass .inbound c s)

/-- DRO.BYPASS, outbound (R100): ignored. -/
def execDroBypass (c : Capture) (s : State) : Host.Outcome State Fault Refusal :=
  .next (dispatchDr .bypass .outbound c s)

/-- DRI.IDCODE, inbound (R102): ignored. -/
def execDriIdcode (c : Capture) (s : State) : Host.Outcome State Fault Refusal :=
  .next (dispatchDr .idcode .inbound c s)

/-- DRO.IDCODE, outbound (R101). -/
def execDroIdcode (c : Capture) (s : State) : Host.Outcome State Fault Refusal :=
  .next (dispatchDr .idcode .outbound c s)

/-- DRI.ABORT, inbound (R103). -/
def execDriAbort (c : Capture) (s : State) : Host.Outcome State Fault Refusal :=
  .next (dispatchDr .abort .inbound c s)

/-- DRO.ABORT, outbound (R104): ignored. -/
def execDroAbort (c : Capture) (s : State) : Host.Outcome State Fault Refusal :=
  .next (dispatchDr .abort .outbound c s)

/-- DRI.UNKNOWN, inbound (R105). -/
def execDriUnknown (c : Capture) (s : State) : Host.Outcome State Fault Refusal :=
  .next (dispatchDr .unknown .inbound c s)

/-- DRO.UNKNOWN, outbound (R106): ignored. -/
def execDroUnknown (c : Capture) (s : State) : Host.Outcome State Fault Refusal :=
  .next (dispatchDr .unknown .outbound c s)

/-- DRI.DTMCS, inbound (R111). -/
def execDriDtmcs (c : Capture) (s : State) : Host.Outcome State Fault Refusal :=
  .next (dispatchDr .dtmcs .inbound c s)

/-- DRO.DTMCS, outbound (R112). -/
def execDroDtmcs (c : Capture) (s : State) : Host.Outcome State Fault Refusal :=
  .next (dispatchDr .dtmcs .outbound c s)

/-- DRI.DMI, inbound (R113). -/
def execDriDmi (c : Capture) (s : State) : Host.Outcome State Fault Refusal :=
  .next (dispatchDr .dmi .inbound c s)

/-- DRO.DMI, outbound (R114). -/
def execDroDmi (c : Capture) (s : State) : Host.Outcome State Fault Refusal :=
  .next (dispatchDr .dmi .outbound c s)

/-- DRI.DPACC, inbound (R107). -/
def execDriDpacc (c : Capture) (s : State) : Host.Outcome State Fault Refusal :=
  .next (dispatchDr .dpacc .inbound c s)

/-- DRO.DPACC, outbound (R108). -/
def execDroDpacc (c : Capture) (s : State) : Host.Outcome State Fault Refusal :=
  .next (dispatchDr .dpacc .outbound c s)

/-- DRI.APACC, inbound (R109). -/
def execDriApacc (c : Capture) (s : State) : Host.Outcome State Fault Refusal :=
  .next (dispatchDr .apacc .inbound c s)

/-- DRO.APACC, outbound (R110). -/
def execDroApacc (c : Capture) (s : State) : Host.Outcome State Fault Refusal :=
  .next (dispatchDr .apacc .outbound c s)

/-- DR.UNHANDLED, inbound (R95): one diagnostic annotation, no state change. -/
def execDriUnhandled (k : Fin 6) (c : Capture) (s : State) : Host.Outcome State Fault Refusal :=
  .next (dispatchUnhandled k c s)

/-- DR.UNHANDLED, outbound (R95): one diagnostic annotation, no state change. -/
def execDroUnhandled (k : Fin 6) (c : Capture) (s : State) : Host.Outcome State Fault Refusal :=
  .next (dispatchUnhandled k c s)

end Sys2Proof.Machine
end

