-- ==== Sys2Proof/Machine/Tracker.lean ====
section
/-! DEFINITION. The meanings of the STATE_CHANGE and IR records (`43_tracker.md` R81 to R91) and of the dropped records
(`42_classifier.md` R72, R77). -/

namespace Sys2Proof.Machine

/-- ST.RESET (R81). -/
def execStReset (rng : SampleRange) (s : State) : Host.Outcome State Fault Refusal :=
  .next (setls (.known .reset) rng (disarm (emitState rng s)))

/-- ST.OTHER (R82): the event-entry annotation and nothing else; the name is not kept. -/
def execStOther (_name : String) (rng : SampleRange) (s : State) : Host.Outcome State Fault Refusal :=
  .next (emitState rng s)

/-- IR.DTMCS (R84). -/
def execIrDtmcs (c : Capture) (s : State) : Host.Outcome State Fault Refusal :=
  .next (loadContinuous .dtmcs (evr c) s)

/-- IR.DMI (R85). -/
def execIrDmi (c : Capture) (s : State) : Host.Outcome State Fault Refusal :=
  .next (loadContinuous .dmi (evr c) s)

/-- IR.BYPASS (R86). -/
def execIrBypass (c : Capture) (s : State) : Host.Outcome State Fault Refusal :=
  .next (loadOneShot .bypass (evr c) s)

/-- IR.BYPASS by the pattern `00000` (R86). -/
def execIrBypassZero (c : Capture) (s : State) : Host.Outcome State Fault Refusal :=
  .next (loadOneShot .bypass (evr c) s)

/-- IR.IDCODE (R87). -/
def execIrIdcode (c : Capture) (s : State) : Host.Outcome State Fault Refusal :=
  .next (loadOneShot .idcode (evr c) s)

/-- IR.ABORT (R88). -/
def execIrAbort (c : Capture) (s : State) : Host.Outcome State Fault Refusal :=
  .next (loadOneShot .abort (evr c) s)

/-- IR.DPACC (R89). -/
def execIrDpacc (c : Capture) (s : State) : Host.Outcome State Fault Refusal :=
  .next (loadOneShot .dpacc (evr c) s)

/-- IR.APACC (R90). -/
def execIrApacc (c : Capture) (s : State) : Host.Outcome State Fault Refusal :=
  .next (loadOneShot .apacc (evr c) s)

/-- IR.UNKNOWN (R91): the load emits no warning and no diagnostic. -/
def execIrUnknown (c : Capture) (s : State) : Host.Outcome State Fault Refusal :=
  .next (loadOneShot .unknown (evr c) s)

/-- IR_TDO (R77): dropped, not even the event-entry annotation is made. -/
def execIrTdo (_p : RawCapture) (s : State) : Host.Outcome State Fault Refusal :=
  .next s

/-- DROP.RESERVED (R72): dropped. -/
def execDropReserved (_k : Fin 3) (_p : RawCapture) (s : State) : Host.Outcome State Fault Refusal :=
  .next s

end Sys2Proof.Machine
end

