-- ==== Sys2Proof/Machine/Dispatch.lean ====
section
/-! DEFINITION. One arm per instruction, each one call of its meaning. -/

namespace Sys2Proof.Machine

def exec (i : Instr) (s : State) : Host.Outcome State Fault Refusal :=
  match i with
  | .stReset rng => Sys2Proof.Machine.execStReset rng s
  | .stOther name rng => Sys2Proof.Machine.execStOther name rng s
  | .irDtmcs c => Sys2Proof.Machine.execIrDtmcs c s
  | .irDmi c => Sys2Proof.Machine.execIrDmi c s
  | .irBypass c => Sys2Proof.Machine.execIrBypass c s
  | .irBypassZero c => Sys2Proof.Machine.execIrBypassZero c s
  | .irIdcode c => Sys2Proof.Machine.execIrIdcode c s
  | .irAbort c => Sys2Proof.Machine.execIrAbort c s
  | .irDpacc c => Sys2Proof.Machine.execIrDpacc c s
  | .irApacc c => Sys2Proof.Machine.execIrApacc c s
  | .irUnknown c => Sys2Proof.Machine.execIrUnknown c s
  | .irTdo p => Sys2Proof.Machine.execIrTdo p s
  | .driIdle c => Sys2Proof.Machine.execDriIdle c s
  | .droIdle c => Sys2Proof.Machine.execDroIdle c s
  | .driReset c => Sys2Proof.Machine.execDriReset c s
  | .droReset c => Sys2Proof.Machine.execDroReset c s
  | .driBypass c => Sys2Proof.Machine.execDriBypass c s
  | .droBypass c => Sys2Proof.Machine.execDroBypass c s
  | .driIdcode c => Sys2Proof.Machine.execDriIdcode c s
  | .droIdcode c => Sys2Proof.Machine.execDroIdcode c s
  | .driAbort c => Sys2Proof.Machine.execDriAbort c s
  | .droAbort c => Sys2Proof.Machine.execDroAbort c s
  | .driUnknown c => Sys2Proof.Machine.execDriUnknown c s
  | .droUnknown c => Sys2Proof.Machine.execDroUnknown c s
  | .driDtmcs c => Sys2Proof.Machine.execDriDtmcs c s
  | .droDtmcs c => Sys2Proof.Machine.execDroDtmcs c s
  | .driDmi c => Sys2Proof.Machine.execDriDmi c s
  | .droDmi c => Sys2Proof.Machine.execDroDmi c s
  | .driDpacc c => Sys2Proof.Machine.execDriDpacc c s
  | .droDpacc c => Sys2Proof.Machine.execDroDpacc c s
  | .driApacc c => Sys2Proof.Machine.execDriApacc c s
  | .droApacc c => Sys2Proof.Machine.execDroApacc c s
  | .driUnhandled k c => Sys2Proof.Machine.execDriUnhandled k c s
  | .droUnhandled k c => Sys2Proof.Machine.execDroUnhandled k c s
  | .dropReserved k p => Sys2Proof.Machine.execDropReserved k p s

end Sys2Proof.Machine
end

