-- ==== Sys2Proof/Machine/Fetch.lean ====
section
/-! DEFINITION. Taking the next record (`00_scope.md` R3), and placing one so that the next step runs it. -/

namespace Sys2Proof.Machine

/-- The state when the oldest record has been taken. -/
def takeRecord (s : State) : State :=
  { s with input := s.input.tail }

/-- A record placed before all others. -/
def placeRecord (r : Record) (s : State) : State :=
  { s with input := r :: s.input }

/-- The state with which the next DR record is dispatched in `x`; `none` leaves the state as it is. -/
def selectState (x : Option Ls) (s : State) : State :=
  match x with
  | none => s
  | some x => { s with ls := x, armed := false }

end Sys2Proof.Machine
end

