-- ==== Sys2Proof/Machine/Step.lean ====
section
/-! DEFINITION. One step: the oldest record is taken, decoded and run (`00_scope.md` R3, `42_classifier.md` section 3). -/

namespace Sys2Proof.Machine

/-- One step. With no record waiting the core holds its state (R142). A malformed record is taken and dropped (R72,
R136). -/
def step (s : State) : Host.Outcome State Fault Refusal :=
  match s.input with
  | [] => .next s
  | r :: _ =>
    match decode s.cfg (dispatchState s) r with
    | .ok i => exec i (takeRecord s)
    | .error _ => .next (takeRecord s)

/-- The state in which the very next step runs the instruction of a table word (log entry 7): its record is placed
first, and for a format-D word the dispatch state is the one its `sel` bits name. A number that is no table word changes
nothing. -/
def State.withFetchWord (s : State) (nbits w : Nat) : State :=
  match recordOfTableWord s.cfg nbits w with
  | none => s
  | some (sel, r) => placeRecord r (selectState sel s)

end Sys2Proof.Machine
end

