-- ==== Sys2Proof/Machine/Trace.lean ====
section
/-! DEFINITION. The trace notation of `30_encoding.md` R51 (D35): records of a regular scan, and the two
pseudo-instructions. -/

namespace Sys2Proof.Machine.Trace

/-- `0x<hex>/<L>`: the `len`-bit spelling of a number. -/
def spell (n len : Nat) : BitString :=
  bitsOfNat len n

/-- The payload `<bits> @<t>/<p>`: after the reversal `sr[i] = (t + p*i, t + p*(i+1))`. -/
def scanAt (bits : BitString) (t p : Nat) : RawCapture :=
  ⟨bits.map bitChar,
   ((List.range bits.length).map (fun i => (⟨t + p * i, t + p * (i + 1)⟩ : SampleRange))).reverse⟩

/-- `ST <name> @<ss>:<es>` -/
def st (name : String) (ss es : Nat) : Record :=
  .stateChange name ⟨ss, es⟩

/-- `IRI <bits> @<t>` -/
def iri (bits : BitString) (t : Nat) (p : Nat := 10) : Record :=
  .irTdi (scanAt bits t p)

/-- `IRO <bits> @<t>` -/
def iro (bits : BitString) (t : Nat) (p : Nat := 10) : Record :=
  .irTdo (scanAt bits t p)

/-- `DRI <bits> @<t>` -/
def dri (bits : BitString) (t : Nat) (p : Nat := 10) : Record :=
  .drTdi (scanAt bits t p)

/-- `DRO <bits> @<t>` -/
def dro (bits : BitString) (t : Nat) (p : Nat := 10) : Record :=
  .drTdo (scanAt bits t p)

/-- `SCAN <in-bits> <out-bits> @<t>`: the two halves of one physical scan, TDI first. -/
def scan (inBits outBits : BitString) (t : Nat) : List Record :=
  [dri inBits t, dro outBits t]

/-- The pattern that the configuration maps to a symbol, if there is one: an open parameter that is set, else the first
pattern that `IRCAT` lists for it and that no open parameter takes. DESIGN CHOICE (log entry 34): R51 does not say which
of several patterns LOAD takes. -/
def patternFor (cfg : Config) (sym : Symbol) : Option Pattern :=
  ([cfg.irAbort, cfg.irDpacc, cfg.irApacc].filterMap id ++ cfg.irCat.map (fun e => e.pattern)).find?
    (fun p => (irLookup cfg (bitsOfVec p)).1 == sym)

/-- `LOAD <sym> @<t>` -/
def load (cfg : Config) (sym : Symbol) (t : Nat) : Option Record :=
  (patternFor cfg sym).map (fun p => iri (bitsOfVec p) t)

end Sys2Proof.Machine.Trace
end

