-- ==== Sys2Proof/Safety.lean ====
section
/-! DEFINITION. What claims are stated in: the closed form of one record's effect, the invariant of the machine, the front
end's duties on sample ranges, and the transition table of `43_tracker.md` section 5. Nothing here is used by the
machine. -/

namespace Sys2Proof.Machine

/-- The state annotation that names `x`, over `r`. -/
def stateNote (r : SampleRange) (x : Ls) : Emission :=
  ⟨r, .state, .state x⟩

/-- The annotations that one record asks for, in order (R122): the event entry, the state `via` entered before the body,
the body, the state `final` entered after it. A state is announced where it differs from the one before. -/
def wantedBy (s : State) (r : SampleRange) (via final : Ls) (body : List Emission) : List Emission :=
  (if s.last = some s.ls then [] else [stateNote r s.ls]) ++
  (if via = s.ls then [] else [stateNote r via]) ++
  body ++
  (if final = via then [] else [stateNote r final])

/-- The records that are appended for a list of wanted annotations (R116): those with a valid range. -/
def appended (t : Txt) (es : List Emission) : List Annotation :=
  (es.filter (fun e => rangeOk e.rng)).map (fun e => annotation t e.rng e.ch e.payload)

/-- The closed form of one accepted record, but for `armed` and `irsym`: `ls` ends as `final`; `last` names it if the
event range is valid, and is as before otherwise (R118); `fault_ir` is set if a wanted annotation has an invalid range
(R132); the valid ones are appended (R116); nothing else changes. -/
def recordEffect (s : State) (r : SampleRange) (via final : Ls) (body : List Emission) : State :=
  { s with
    ls := final
    last := if rangeOk r then some final else s.last
    faultIr := s.faultIr || (wantedBy s r via final body).any (fun e => !rangeOk e.rng)
    out := s.out ++ appended s.cfg.txt (wantedBy s r via final body) }

/-- What the decoder of `x` asks for: the body's annotations, or the one diagnostic of a degraded decode (R115, R130). -/
def bodyOrDegraded (cfg : Config) (x : LState) (d : Dir) (c : Capture) : List Emission :=
  match tryDecode cfg x d c with
  | .ok es => es
  | .error e => [⟨evr c, .diagnostic, .degraded x e c.bits⟩]

/-- The states named by the state annotations of a trace, in order (R126). -/
def stateNames (out : List Annotation) : List Ls :=
  out.filterMap (fun a => match a.payload with
    | .state x => some x
    | _ => none)

/-- No two neighbours are equal (R126). -/
def noRepeat : List Ls → Bool
  | [] => true
  | [_] => true
  | x :: y :: zs => x != y && noRepeat (y :: zs)

/-- An annotation record as `emit` makes it (R116, R117): a valid range, the payload's one channel, and as its text the
one rendering of the payload. -/
def annotationOk (t : Txt) (a : Annotation) : Prop :=
  a.ss < a.es ∧ a.ch = payloadChannel a.payload ∧ a.text = [render t a.payload]

/-- The invariant of the machine. -/
structure MachineInv (s : State) : Prop where
  /-- `ls` is one of the ten states (R9): the unhandled case of R95 has no instance -/
  lsKnown : ∃ x, s.ls = .known x
  /-- `armed` implies a one-shot symbol (R19 (b)) -/
  armedOneShot : s.armed = true → oneShot s.irsym = true
  /-- every annotation record is as `emit` makes it (R116, R117) -/
  outOk : ∀ a ∈ s.out, annotationOk s.cfg.txt a
  /-- `last` is the state named by the most recent state annotation, or `none` (R12) -/
  lastIsNewest : s.last = (stateNames s.out).getLast?
  /-- no two consecutive state annotations name the same state (R126) -/
  notesDiffer : noRepeat (stateNames s.out) = true
  /-- after an accepted record `last = some ls`, unless a state annotation was dropped (R19 (a)); before the first
  accepted record nothing has been emitted -/
  announced : s.faultIr = false → s.last = some s.ls ∨ (s.last = none ∧ s.out = [] ∧ s.ls = .known .idle)

/-- Every range has `start < end`, and the ranges do not decrease in shift order (R132, R149 (c)). -/
def rangesOk : List SampleRange → Bool
  | [] => true
  | [r] => rangeOk r
  | r :: q :: rs => rangeOk r && decide (r.es ≤ q.ss) && rangesOk (q :: rs)

/-- The front end's duty on the sample ranges of one record (R149 (c)); a dropped record has none. -/
def recordRangesOk : Record → Bool
  | .stateChange _ rng => rangeOk rng
  | .irTdi p => rangesOk p.ranges.reverse
  | .irTdo _ => true
  | .drTdi p => rangesOk p.ranges.reverse
  | .drTdo p => rangesOk p.ranges.reverse
  | .reserved _ _ => true

/-- Where a DR record that is dispatched in a state leaves it (the DR rows of `43_tracker.md` section 5). -/
def lsAfterDr : Dir → Ls → Ls
  | _, .known .idle => .known .idle
  | _, .known .reset => .known .idle
  | .inbound, .known .bypass => .known .idle
  | .outbound, .known .bypass => .known .bypass
  | .inbound, .known .abort => .known .idle
  | .outbound, .known .abort => .known .abort
  | .inbound, .known .unknown => .known .idle
  | .outbound, .known .unknown => .known .unknown
  | .inbound, .known .idcode => .known .idcode
  | .outbound, .known .idcode => .known .idle
  | .inbound, .known .dpacc => .known .dpacc
  | .outbound, .known .dpacc => .known .idle
  | .inbound, .known .apacc => .known .apacc
  | .outbound, .known .apacc => .known .idle
  | _, .known .dtmcs => .known .dtmcs
  | _, .known .dmi => .known .dmi
  | _, .spare k => .spare k

/-- The transition table of `43_tracker.md` section 5, on `(ls, irsym, armed)`. -/
def trackerAfter (cfg : Config) (ls : Ls) (irsym : Symbol) (armed : Bool) : TapEvent → Ls × Symbol × Bool
  | .stateChange name _ => if name = cfg.resetName then (.known .reset, irsym, false) else (ls, irsym, armed)
  | .irLoad c =>
    match (irLookup cfg c.bits).1 with
    | .dtmcs => (.known .dtmcs, .dtmcs, false)
    | .dmi => (.known .dmi, .dmi, false)
    | sym => (ls, sym, true)
  | .drShiftIn _ => (lsAfterDr .inbound (if armed then .known (stateOf irsym) else ls), irsym, false)
  | .drShiftOut _ => (lsAfterDr .outbound (if armed then .known (stateOf irsym) else ls), irsym, false)

/-- Well-formedness of a format-B payload (R72): at least one character, one range per character, nothing but bits. -/
def rawOk (p : RawCapture) : Bool :=
  !p.chars.isEmpty && p.ranges.length == p.chars.length && p.chars.all (fun ch => ch == '0' || ch == '1')

/-- The value of a hexadecimal digit. -/
def hexDigitValue (ch : Char) : Nat :=
  if ch.toNat < 58 then ch.toNat - 48 else ch.toNat - 87

/-- The number that a list of hexadecimal digits spells, most significant first. -/
def hexValue (cs : List Char) : Nat :=
  cs.foldl (fun n ch => 16 * n + hexDigitValue ch) 0

/-- A state that keeps apart the three ARM registers, which the default catalog never selects (R52). -/
def riscvOnly (s : State) : Prop :=
  s.cfg = defaultConfig ∧
  s.ls ≠ .known .abort ∧ s.ls ≠ .known .dpacc ∧ s.ls ≠ .known .apacc ∧
  s.irsym ≠ .abort ∧ s.irsym ≠ .dpacc ∧ s.irsym ≠ .apacc

end Sys2Proof.Machine
end

