-- ==== Sys2Proof/Certificates/Slice0/Obligations.lean ====
section
/-! DEFINITION. The statements for the provers. Each docstring names the rule that the statement formalises, or, where it
rests on a decision of the spec (`92_eei_decisions.md`) or of the model, that decision and its log entry. -/

open Sys2Proof Sys2Proof.Machine

/-! ## Reset and catalog -/

/-- R20, R143: the power-on state. The values of `irsym`, `armed` and `fault_ir` are the spec's decision D10, the existence
of a power-on reset its D34 (log entry 5); `cfg` and `input` are the model's own fields (log entries 1, 2, 6). -/
def Obligations.ResetIsThePowerOnState : Prop :=
  State.reset.ls = .known .idle ∧ State.reset.irsym = .unknown ∧ State.reset.armed = false ∧
  State.reset.last = none ∧ State.reset.faultIr = false ∧ State.reset.out = [] ∧
  State.reset.cfg = defaultConfig ∧ State.reset.input = []

/-- R54: the state of each symbol; injective; its image is every state but Idle and Reset. -/
def Obligations.StateOfNamesTheDecoderOfEachSymbol : Prop :=
  (stateOf .bypass = .bypass ∧ stateOf .idcode = .idcode ∧ stateOf .abort = .abort ∧ stateOf .unknown = .unknown ∧
    stateOf .dpacc = .dpacc ∧ stateOf .apacc = .apacc ∧ stateOf .dtmcs = .dtmcs ∧ stateOf .dmi = .dmi) ∧
  (∀ a b : Symbol, stateOf a = stateOf b → a = b) ∧
  (∀ x : LState, (∃ a, stateOf a = x) ↔ (x ≠ .idle ∧ x ≠ .reset))

/-- R52, for every configuration: a capture whose length is not 5 is UNKNOWN (D6, log entry 12); every capture of length 5
spells one pattern, and the open parameters come before `IRCAT`. `IRCAT` is a function in the spec; that it is a list here,
of which the first entry for the pattern counts, is the model's choice (log entry 6). -/
def Obligations.IrLookupComparesFiveBitPatterns : Prop :=
  ∀ (cfg : Config) (bits : BitString),
    (bits.length ≠ 5 → irLookup cfg bits = (.unknown, 0)) ∧
    (bits.length = 5 → ∃ p : Pattern, bits = bitsOfVec p) ∧
    (∀ p : Pattern, bits = bitsOfVec p →
      irLookup cfg bits =
        if cfg.irAbort = some p then (.abort, 0)
        else if cfg.irDpacc = some p then (.dpacc, 0)
        else if cfg.irApacc = some p then (.apacc, 0)
        else match cfg.irCat.find? (fun e => e.pattern == p) with
          | some e => (e.symbol, e.width)
          | none => (.unknown, 0))

/-- R52, R56 with the default tables, which the spec gives from general knowledge (D7, D8, log entry 6): every 5-bit
pattern, every address of the DMI map, and that every other address is outside it. -/
def Obligations.DefaultTablesRouteTheirCodes : Prop :=
  (∀ p : Pattern, irLookup defaultConfig (bitsOfVec p) =
    if p = 0b00001 then (.idcode, 32) else if p = 0b10000 then (.dtmcs, 32) else if p = 0b10001 then (.dmi, 0)
    else if p = 0b11111 then (.bypass, 1) else if p = 0b00000 then (.bypass, 1) else (.unknown, 0)) ∧
  ∀ map : List (Nat × String),
    map =
      [(0x04, "data0"), (0x05, "data1"), (0x06, "data2"), (0x07, "data3"), (0x08, "data4"), (0x09, "data5"),
       (0x0a, "data6"), (0x0b, "data7"), (0x0c, "data8"), (0x0d, "data9"), (0x0e, "data10"), (0x0f, "data11"),
       (0x10, "dmcontrol"), (0x11, "dmstatus"), (0x12, "hartinfo"), (0x13, "haltsum1"), (0x14, "hawindowsel"),
       (0x15, "hawindow"), (0x16, "abstractcs"), (0x17, "command"), (0x18, "abstractauto"), (0x19, "confstrptr0"),
       (0x1a, "confstrptr1"), (0x1b, "confstrptr2"), (0x1c, "confstrptr3"), (0x1d, "nextdm")] ++
      [(0x20, "progbuf0"), (0x21, "progbuf1"), (0x22, "progbuf2"), (0x23, "progbuf3"), (0x24, "progbuf4"),
       (0x25, "progbuf5"), (0x26, "progbuf6"), (0x27, "progbuf7"), (0x28, "progbuf8"), (0x29, "progbuf9"),
       (0x2a, "progbuf10"), (0x2b, "progbuf11"), (0x2c, "progbuf12"), (0x2d, "progbuf13"), (0x2e, "progbuf14"),
       (0x2f, "progbuf15")] ++
      [(0x30, "authdata"), (0x34, "haltsum2"), (0x35, "haltsum3"), (0x37, "sbaddress3"), (0x38, "sbcs"),
       (0x39, "sbaddress0"), (0x3a, "sbaddress1"), (0x3b, "sbaddress2"), (0x3c, "sbdata0"), (0x3d, "sbdata1"),
       (0x3e, "sbdata2"), (0x3f, "sbdata3"), (0x40, "haltsum0")] →
    (∀ e ∈ map, dmiLookup defaultConfig e.1 = some (e.2, e.2)) ∧
    (∀ a : Nat, (∀ e ∈ map, e.1 ≠ a) → dmiLookup defaultConfig a = none)

/-- R57: the lookup is by numeric value. That the first of several entries counts is the model's choice (log entry 6). -/
def Obligations.DmiLookupIsByNumericValue : Prop :=
  ∀ (cfg : Config) (addr : Nat),
    (dmiLookup cfg addr = none ↔ ∀ e ∈ cfg.dmiCat, e.addr ≠ addr) ∧
    (∀ pre e post, cfg.dmiCat = pre ++ e :: post → (∀ f ∈ pre, f.addr ≠ addr) → e.addr = addr →
      dmiLookup cfg addr = some (e.name, e.descr))

/-! ## Bitfield primitives -/

/-- R62: `slice`, its two errors and the positions of its result. The order of the two checks is the spec's decision D31 (log
entry 24). -/
def Obligations.SliceTakesThePositionsOrFails : Prop :=
  ∀ (s : BitString) (start stop a b : Int),
    a = (if 0 ≤ start then start else s.length + start) →
    b = (if 0 ≤ stop then stop else s.length + stop) →
    ((a < 0 ∨ s.length < a ∨ b < 0 ∨ s.length < b) → slice s start stop = .error .outOfRange) ∧
    ((0 ≤ a ∧ a ≤ s.length ∧ 0 ≤ b ∧ b ≤ s.length) →
      (b < a → slice s start stop = .error .malformedField) ∧
      (a ≤ b → ∃ t, slice s start stop = .ok t ∧ (t.length : Int) = b - a ∧
        ∀ k : Nat, k < t.length → t[k]? = s[a.toNat + k]?))

/-- R63: the sum of the bits by weight, below `2^L`, refused for the empty string; leading zeros do not change it. That
there is no width limit is the spec's decision D33 (log entry 26). -/
def Obligations.ToUnsignedIntIsBigEndian : Prop :=
  toUnsignedInt [] = .error .malformedField ∧
  ∀ x : BitString, x ≠ [] →
    ∃ n, toUnsignedInt x = .ok n ∧
      n = ((List.range x.length).map (fun k => (x.getD k false).toNat * 2 ^ (x.length - 1 - k))).sum ∧
      n < 2 ^ x.length ∧ toUnsignedInt (false :: x) = .ok n

/-- R64, with the spec's own inferences (empty string; the number 0 for a non-empty one). -/
def Obligations.IsAllZeroTestsEveryBit : Prop :=
  ∀ x : BitString,
    (isAllZero x = true ↔ ∀ k, k < x.length → x[k]? = some false) ∧
    (x ≠ [] → (isAllZero x = true ↔ toUnsignedInt x = .ok 0))

/-- R65, R70: the decoders' arithmetic reads exactly the slice that R65 names. -/
def Obligations.FieldReadsItsSlice : Prop :=
  ∀ (s : BitString) (hi lo : Nat), lo ≤ hi → hi < s.length →
    ∃ t, slice s ((s.length : Int) - 1 - hi) ((s.length : Int) - lo) = .ok t ∧ t.length = hi - lo + 1 ∧
      toUnsignedInt t = .ok (field s hi lo)

/-- R65: slicing is lossless, and adjacent fields concatenate. -/
def Obligations.SlicingIsLosslessAndFieldsConcatenate : Prop :=
  (∀ (s s' : BitString) (a b : Nat), s.length = s'.length → a ≤ b → b ≤ s.length →
    (∀ k, a ≤ k → k < b → s[k]? = s'[k]?) → slice s a b = slice s' a b) ∧
  (∀ (s : BitString) (hi mid lo : Nat), lo < mid → mid ≤ hi → hi < s.length →
    field s hi lo = field s hi mid * 2 ^ (mid - lo) + field s (mid - 1) lo)

/-- R29, R31: bits shifted after a field (prepended to the string) do not change it. -/
def Obligations.LaterBitsDoNotChangeAField : Prop :=
  ∀ (extra s : BitString) (hi lo : Nat), lo ≤ hi → hi < s.length → field (extra ++ s) hi lo = field s hi lo

/-- R44: reserved, manufacturer, part and version tile bits 31:0, and manufacturer is the continuation code followed by
the identity code (`90_conflicts.md` C2, C4; log entry 30). -/
def Obligations.IdcodeFieldsTileTheWord : Prop :=
  ∀ s : BitString, 32 ≤ s.length →
    val s % 2 ^ 32 = field s 31 28 * 2 ^ 28 + field s 27 12 * 2 ^ 12 + field s 11 1 * 2 + field s 0 0 ∧
    field s 11 1 = field s 11 8 * 2 ^ 7 + field s 7 1

/-- R66, R67: the digits spell the number, are lower-case hexadecimal and have no leading zero. That they are minimal is the
spec's decision D27 (log entry 20). -/
def Obligations.HexDigitsSpellTheNumber : Prop :=
  ∀ n : Nat, ∃ cs : List Char,
    hexbare n = String.ofList cs ∧ hex n = "0x" ++ String.ofList cs ∧ cs ≠ [] ∧ hexValue cs = n ∧
    (∀ ch ∈ cs, ('0' ≤ ch ∧ ch ≤ '9') ∨ ('a' ≤ ch ∧ ch ≤ 'f')) ∧ (n ≠ 0 → cs.head? ≠ some '0') ∧
    (n = 0 → cs = ['0'])

/-! ## Event Classifier -/

/-- R73: for a well-formed format-B record of each accepted kind, `sr[i] = ranges[L-1-i]`, and the bit string is passed on
unchanged. No later rule reverses again: the instruction that the decoder selects carries this very capture, and each field
annotation of a decoder body covers the ranges that arrived with the field's own bits. -/
def Obligations.ClassifierReversesTheRangesOnce : Prop :=
  ∀ p : RawCapture, rawOk p = true →
    ∃ c : Capture,
      classify (.irTdi p) = some (.irLoad c) ∧ classify (.drTdi p) = some (.drShiftIn c) ∧
      classify (.drTdo p) = some (.drShiftOut c) ∧ c.bits.map bitChar = p.chars ∧
      c.sr.length = p.chars.length ∧
      (∀ i, i < p.chars.length → c.sr[i]? = p.ranges[p.chars.length - 1 - i]?) ∧
      (∀ (cfg : Config) (sel : Ls),
        decode cfg sel (.irTdi p) = .ok (selectIr cfg c) ∧ decode cfg sel (.drTdi p) = .ok (selectDri sel c) ∧
        decode cfg sel (.drTdo p) = .ok (selectDro sel c)) ∧
      (∀ (cfg : Config) (x : LState) (d : Dir) (es : List Emission), tryDecode cfg x d c = .ok es →
        ∀ e ∈ es, ∀ (reg : Symbol) (dir : Dir) (label : FieldLabel) (value hi lo : Nat),
          e.payload = .field reg dir label value hi lo →
          lo ≤ hi ∧ hi < p.chars.length ∧
          ∃ first final : SampleRange,
            p.ranges[p.chars.length - 1 - lo]? = some first ∧ p.ranges[p.chars.length - 1 - hi]? = some final ∧
            e.rng = ⟨first.ss, final.es⟩)

/-- R72, R77, R136: exactly the malformed records, IR_TDO and the reserved command codes have no event, and a step takes
such a record and changes nothing else. That they are dropped is the spec's decision D4, D5 (log entries 10, 11). -/
def Obligations.RecordsWithoutAnEventAreDropped : Prop :=
  (∀ p, (classify (.irTdi p) = none ↔ rawOk p = false) ∧ (classify (.drTdi p) = none ↔ rawOk p = false) ∧
    (classify (.drTdo p) = none ↔ rawOk p = false) ∧ classify (.irTdo p) = none ∧
    ∀ k, classify (.reserved k p) = none) ∧
  (∀ name rng, classify (.stateChange name rng) = some (.stateChange name rng)) ∧
  (∀ s r rest, s.input = r :: rest → classify r = none → step s = .next { s with input := rest })

/-- R120, R74: the ranges of a regular scan (R51) of `L` bits that starts at `t` with `p` samples a bit. That whole-event
annotations cover the whole capture is the spec's decision D3 (log entry 13). -/
def Obligations.RegularScanRanges : Prop :=
  ∀ (bits : BitString) (t p : Nat), bits ≠ [] →
    ∃ c, classifyCapture (Trace.scanAt bits t p) = .ok c ∧ c.bits = bits ∧
      evr c = ⟨t, t + p * bits.length⟩ ∧
      ∀ hi lo, lo ≤ hi → hi < bits.length → fieldRange c hi lo = ⟨t + p * lo, t + p * (hi + 1)⟩

/-! ## Encoding -/

/-- R40, R42, R83, R93: the record of a well-formed instruction decodes to it, under every configuration and dispatch
state. -/
def Obligations.DecodeOfEncodeIsTheInstruction : Prop :=
  ∀ (cfg : Config) (sel : Ls) (i : Instr), i.wellFormed cfg sel = true → decode cfg sel (encode cfg i) = .ok i

/-- R40, R42: what the decoder accepts is well formed, and the instruction's record is the record it came from. -/
def Obligations.EncodeOfDecodeIsTheRecord : Prop :=
  ∀ (cfg : Config) (sel : Ls) (r : Record) (i : Instr), decode cfg sel r = .ok i →
    i.wellFormed cfg sel = true ∧ encode cfg i = r

/-- Words of `opcode_table.json`, one or more of each format; the operands of a table word and the reading of a width in
whole bytes are the model's choice (log entry 7). -/
def Obligations.TableWordsDecodeToTheirRows : Prop :=
  (∃ r, decodeTableWord 4 0b0001 = some (.stReset r)) ∧
  (∃ n r, decodeTableWord 4 0b0000 = some (.stOther n r)) ∧
  (∃ c, decodeTableWord 8 0b00110000 = some (.irDtmcs c)) ∧
  (∃ c, decodeTableWord 8 0b00100000 = some (.irBypassZero c)) ∧
  (∃ p, decodeTableWord 3 0b010 = some (.irTdo p)) ∧
  (∃ c, decodeTableWord 7 0b0110100 = some (.driAbort c)) ∧
  (∃ c, decodeTableWord 7 0b1000011 = some (.droIdcode c)) ∧
  (∃ c, decodeTableWord 7 0b1001001 = some (.droApacc c)) ∧
  (∃ c, decodeTableWord 7 0b0111010 = some (.driUnhandled 0 c)) ∧
  (∃ p, decodeTableWord 3 0b101 = some (.dropReserved 0 p))

/-- R21: the codes of the `ls` register, both ways; the numbers are the spec's decision D32 (log entry 25). -/
def Obligations.LsCodesRoundTrip : Prop :=
  (∀ x : Ls, lsOfCode (lsCode x) = x) ∧ (∀ c : BitVec 4, lsCode (lsOfCode c) = c) ∧
  (∀ x y : Option Ls, lastCode x = lastCode y → x = y)

/-! ## Annotation Emitter -/

/-- R116, R132: a valid range appends one record, an invalid one sets the flag; nothing else changes. One text per record is
the spec's decision D41, the sticky flag its D30 (log entries 20, 23). -/
def Obligations.EmitAppendsOrRaisesTheFlag : Prop :=
  ∀ (r : SampleRange) (ch : Channel) (p : Payload) (s : State),
    (r.ss < r.es → emit r ch p s =
      ({ s with out := s.out ++ [⟨r.ss, r.es, ch, [render s.cfg.txt p], p⟩] }, true)) ∧
    (r.es ≤ r.ss → emit r ch p s = ({ s with faultIr := true }, false))

/-- R118: `emitState`. That `last` is kept when the annotation is dropped is an inference of the spec. -/
def Obligations.EmitStateAnnouncesOnce : Prop :=
  ∀ (r : SampleRange) (s : State),
    (s.last = some s.ls → emitState r s = s) ∧
    (s.last ≠ some s.ls → r.ss < r.es → emitState r s =
      { s with last := some s.ls, out := s.out ++ [⟨r.ss, r.es, .state, [lsName s.cfg.txt s.ls], .state s.ls⟩] }) ∧
    (s.last ≠ some s.ls → r.es ≤ r.ss → emitState r s = { s with faultIr := true })

/-- R123 to R125 whole, with the default `TXT`: every field label of every register, every summary, every state name, the
warning, both degraded errors and the unhandled state. The texts the source leaves open are the spec's decisions D23 to D25
and D28, the polarity of RnW its D26 (log entries 20, 21). That a `data` or `address` field renders in hexadecimal whatever
its width is the model's reading (log entry 20). R4: the text of a field takes its label and separator from `TXT`, under every
configuration. -/
def Obligations.DefaultTexts : Prop :=
  (∀ (t : Txt) (reg : Symbol) (dir : Dir) (label : FieldLabel) (value hi lo : Nat),
    render t (.field reg dir label value hi lo) =
      (match label with
        | .reserved => (t.labels.get reg).reserved
        | .continuationCode => (t.labels.get reg).continuationCode
        | .identityCode => (t.labels.get reg).identityCode
        | .manufacturer => (t.labels.get reg).manufacturer
        | .part => (t.labels.get reg).part
        | .version => (t.labels.get reg).version
        | .dapabort => (t.labels.get reg).dapabort
        | .data => (t.labels.get reg).data
        | .address => (t.labels.get reg).address
        | .readWrite => (t.labels.get reg).readWrite
        | .ack => (t.labels.get reg).ack
        | .abits => (t.labels.get reg).abits
        | .dmistat => (t.labels.get reg).dmistat
        | .idle => (t.labels.get reg).idle
        | .dmireset => (t.labels.get reg).dmireset
        | .dmihardreset => (t.labels.get reg).dmihardreset
        | .op => (t.labels.get reg).op) ++ t.fieldSep ++
      fieldValueText reg label value) ∧
  (∀ s : BitString, bitsText s = String.ofList (s.map (fun b => if b then '1' else '0'))) ∧
  bitchar 0 = "0" ∧ bitchar 1 = "1" ∧
  (∀ e ∈ [(Symbol.idcode, FieldLabel.reserved, "reserved", true),
      (.idcode, .continuationCode, "continuation-code", false), (.idcode, .identityCode, "identity-code", false),
      (.idcode, .manufacturer, "manufacturer", false), (.idcode, .part, "part", false),
      (.idcode, .version, "version", false), (.abort, .dapabort, "DAPABORT", true),
      (.abort, .reserved, "reserved", false), (.dpacc, .data, "data", false), (.dpacc, .address, "address", false),
      (.dpacc, .readWrite, "read/write", true), (.dpacc, .ack, "ack", false), (.apacc, .data, "data", false),
      (.apacc, .address, "address", false), (.apacc, .readWrite, "read/write", true), (.apacc, .ack, "ack", false),
      (.dtmcs, .version, "version", false), (.dtmcs, .abits, "abits", false), (.dtmcs, .dmistat, "dmistat", false),
      (.dtmcs, .idle, "idle", false), (.dtmcs, .dmireset, "dmireset", true),
      (.dtmcs, .dmihardreset, "dmihardreset", true), (.dmi, .address, "address", false), (.dmi, .data, "data", false),
      (.dmi, .op, "op", false)],
    ∀ (dir : Dir) (value hi lo : Nat), render defaultTxt (.field e.1 dir e.2.1 value hi lo) =
      e.2.2.1 ++ ": " ++ (if e.2.2.2 then bitchar value else hex value)) ∧
  (∀ s, render defaultTxt (.item s) = "BYPASS: " ++ bitsText s) ∧
  (∀ mf ver pt, render defaultTxt (.cmd (.idcode mf ver pt)) =
    "IDCODE: (" ++ hexbare mf ++ ": " ++ hexbare ver ++ "/" ++ hexbare pt ++ ")") ∧
  render defaultTxt (.cmd (.abort 1)) = "DAPABORT = 1: DAP abort generated" ∧
  render defaultTxt (.cmd (.abort 0)) = "DAPABORT = 0: No DAP abort generated" ∧
  (∀ reg data a, render defaultTxt (.cmd (.accessIn reg data a 1)) =
    "New transaction: DATA: " ++ hex data ++ ", A: " ++ hex a ++ ", RnW: " ++ "Read" ++ " request") ∧
  (∀ reg data a, render defaultTxt (.cmd (.accessIn reg data a 0)) =
    "New transaction: DATA: " ++ hex data ++ ", A: " ++ hex a ++ ", RnW: " ++ "Write" ++ " request") ∧
  (∀ reg data ack, render defaultTxt (.cmd (.accessOut reg data ack)) =
    "Previous transaction result: DATA: " ++ hex data ++ ", ACK: " ++
      (if ack = 1 then "WAIT" else if ack = 2 then "OK/FAULT" else "Reserved")) ∧
  (∀ dir op ad data, render defaultTxt (.cmd (.dmiSplit dir op ad data)) =
    (if dir = .inbound then "in" else "out") ++ " instr: " ++ hex op ++ " addr: " ++ hex ad ++ " data: " ++ hex data) ∧
  (∀ s, render defaultTxt (.cmd (.unknown s)) = "Unknown instruction: " ++ bitsText s) ∧
  (∀ e ∈ [(LState.idle, "Idle"), (.reset, "Reset"), (.bypass, "Bypass"), (.idcode, "Idcode"), (.abort, "Abort"),
      (.unknown, "Unknown"), (.dtmcs, "Dtmcs"), (.dmi, "Dmi"), (.dpacc, "Dpacc"), (.apacc, "Apacc")],
    render defaultTxt (.state (.known e.1)) = e.2 ∧
    ∀ s, render defaultTxt (.degraded e.1 .malformedField s) =
        "UNKNOWN (" ++ e.2 ++ ", " ++ "MalformedField" ++ "): " ++ bitsText s ∧
      render defaultTxt (.degraded e.1 .outOfRange s) =
        "UNKNOWN (" ++ e.2 ++ ", " ++ "OutOfRange" ++ "): " ++ bitsText s) ∧
  (∀ ver ab st idl, render defaultTxt (.cmd (.dtmcsIn ver ab st idl)) =
    "in dtmcs: version: " ++ hex ver ++ " abits: " ++ hex ab ++ " dmistat: " ++ hex st ++ " idle: " ++ hex idl) ∧
  (∀ dr dh, render defaultTxt (.cmd (.dtmcsOut dr dh)) =
    "out dtmcs: dmireset: " ++ bitchar dr ++ " dmihardreset: " ++ bitchar dh) ∧
  (∀ dir n, render defaultTxt (.cmd (.dmiRaw dir n)) = (if dir = .inbound then "in" else "out") ++ " raw: " ++ hex n) ∧
  (∀ value, render defaultTxt (.warnAbortReserved value) = "WARNING: ABORT bits 31:1 reserved, must be zero") ∧
  render defaultTxt (.unhandled 0) = "Unhandled state: 10" ∧ render defaultTxt (.unhandled 1) = "Unhandled state: 11" ∧
  render defaultTxt (.unhandled 2) = "Unhandled state: 12" ∧ render defaultTxt (.unhandled 3) = "Unhandled state: 13" ∧
  render defaultTxt (.unhandled 4) = "Unhandled state: 14" ∧ render defaultTxt (.unhandled 5) = "Unhandled state: 15"

/-! ## Register Decoders -/

/-- R101: the dispatch word, the fields of IDCODE in the order of the rule, each over the ranges of its own bits, the
summary, the renderings that the rule names, the error, and the completion. The operands of the dispatch word are log entry
7, the set and order of the fields D22 (log entry 19), the digits of a number D27 (20), the completion of a degraded decode
D29 (22), the numbering of the bits `90_conflicts.md` C2 (30). -/
def Obligations.IdcodeDecoderFollowsItsRule : Prop :=
  (∃ c, decodeTableWord 7 0b1000011 = some (.droIdcode c)) ∧
  (∀ (v : Capture) (r : SampleRange), v.bits.length < 32 →
    decoderBody .idcode .outbound v r = .error .outOfRange) ∧
  (∀ (v : Capture) (r : SampleRange) (n : Nat), 32 ≤ v.bits.length → n = val v.bits →
    decoderBody .idcode .outbound v r = .ok
      [⟨⟨(srAt v.sr 0).ss, (srAt v.sr 0).es⟩, .field, .field .idcode .outbound .reserved (n % 2) 0 0⟩,
       ⟨⟨(srAt v.sr 8).ss, (srAt v.sr 11).es⟩, .field,
         .field .idcode .outbound .continuationCode (n / 2 ^ 8 % 2 ^ 4) 11 8⟩,
       ⟨⟨(srAt v.sr 1).ss, (srAt v.sr 7).es⟩, .field, .field .idcode .outbound .identityCode (n / 2 % 2 ^ 7) 7 1⟩,
       ⟨⟨(srAt v.sr 1).ss, (srAt v.sr 11).es⟩, .field, .field .idcode .outbound .manufacturer (n / 2 % 2 ^ 11) 11 1⟩,
       ⟨⟨(srAt v.sr 12).ss, (srAt v.sr 27).es⟩, .field, .field .idcode .outbound .part (n / 2 ^ 12 % 2 ^ 16) 27 12⟩,
       ⟨⟨(srAt v.sr 28).ss, (srAt v.sr 31).es⟩, .field, .field .idcode .outbound .version (n / 2 ^ 28 % 2 ^ 4) 31 28⟩,
       ⟨r, .command, .cmd (.idcode (n / 2 % 2 ^ 11) (n / 2 ^ 28 % 2 ^ 4) (n / 2 ^ 12 % 2 ^ 16))⟩]) ∧
  (∀ (t : Txt) (mf ver pt : Nat), render t (.cmd (.idcode mf ver pt)) =
    "IDCODE: (" ++ hexbare mf ++ ": " ++ hexbare ver ++ "/" ++ hexbare pt ++ ")") ∧
  (∀ n, fieldValueText .idcode .reserved n = bitchar n ∧ fieldValueText .idcode .continuationCode n = hex n ∧
    fieldValueText .idcode .identityCode n = hex n ∧ fieldValueText .idcode .manufacturer n = hex n ∧
    fieldValueText .idcode .part n = hex n ∧ fieldValueText .idcode .version n = hex n) ∧
  (∀ (c : Capture) (s : State), dispatchState s = .known .idcode →
    ∃ t, exec (.droIdcode c) s = .next t ∧ t.ls = .known .idle)

/-- R103, R134: the dispatch word, the fields of ABORT, the summary, exactly one warning if and only if a reserved bit is
set, no warning from any other decoder, the error, and the completion. The operands of the dispatch word are log entry 7,
the fields, then the summary, then the warning D22 (log entry 19), the completion of a degraded decode D29 (22), the
numbering of the bits `90_conflicts.md` C2 (30). -/
def Obligations.AbortDecoderWarnsOnReservedBits : Prop :=
  (∃ c, decodeTableWord 7 0b0110100 = some (.driAbort c)) ∧
  (∀ (x : LState) (d : Dir) (v : Capture) (r : SampleRange) (es : List Emission),
    decoderBody x d v r = .ok es → (∃ e ∈ es, e.ch = .warning) → x = .abort ∧ d = .inbound) ∧
  (∀ (v : Capture) (r : SampleRange), v.bits.length < 32 →
    decoderBody .abort .inbound v r = .error .outOfRange) ∧
  (∀ (v : Capture) (r : SampleRange) (n : Nat), 32 ≤ v.bits.length → n = val v.bits →
    decoderBody .abort .inbound v r = .ok
      ([⟨⟨(srAt v.sr 0).ss, (srAt v.sr 0).es⟩, .field, .field .abort .inbound .dapabort (n % 2) 0 0⟩,
        ⟨⟨(srAt v.sr 1).ss, (srAt v.sr 31).es⟩, .field, .field .abort .inbound .reserved (n / 2 % 2 ^ 31) 31 1⟩,
        ⟨r, .command, .cmd (.abort (n % 2))⟩] ++
       if n / 2 % 2 ^ 31 = 0 then [] else [⟨r, .warning, .warnAbortReserved (n / 2 % 2 ^ 31)⟩])) ∧
  (∀ (v : Capture) (t : BitString), 32 ≤ v.bits.length →
    slice v.bits ((v.bits.length : Int) - 32) ((v.bits.length : Int) - 1) = .ok t →
    (isAllZero t = true ↔ val v.bits / 2 % 2 ^ 31 = 0)) ∧
  (∀ (t : Txt) (da : Nat), render t (.cmd (.abort da)) =
    "DAPABORT = " ++ bitchar da ++ ": " ++ (if da = 1 then "" else "No ") ++ "DAP abort generated") ∧
  (∀ n, fieldValueText .abort .dapabort n = bitchar n ∧ fieldValueText .abort .reserved n = hex n) ∧
  (∀ (c : Capture) (s : State), dispatchState s = .known .abort →
    ∃ t, exec (.driAbort c) s = .next t ∧ t.ls = .known .idle)

/-- R105: the dispatch word (operands: log entry 7), no field (D40, log entry 19), one summary with the DR capture, no error,
and the completion, after a degraded decode too (D29, log entry 22). -/
def Obligations.UnknownDecoderShowsTheBits : Prop :=
  (∃ c, decodeTableWord 7 0b0110101 = some (.driUnknown c)) ∧
  (∀ (v : Capture) (r : SampleRange),
    decoderBody .unknown .inbound v r = .ok [⟨r, .command, .cmd (.unknown v.bits)⟩]) ∧
  (∀ (t : Txt) (s : BitString), render t (.cmd (.unknown s)) = "Unknown instruction: " ++ bitsText s) ∧
  (∀ (c : Capture) (s : State), dispatchState s = .known .unknown →
    ∃ t, exec (.driUnknown c) s = .next t ∧ t.ls = .known .idle)

/-- R99: the dispatch word (operands: log entry 7), the one summary, on the item channel, and the completion, after a
degraded decode too (D29, log entry 22). That it has no field is the spec's decision D40 (log entry 19). -/
def Obligations.BypassDecoderUsesTheItemChannel : Prop :=
  (∃ c, decodeTableWord 7 0b0110010 = some (.driBypass c)) ∧
  (∀ (v : Capture) (r : SampleRange), decoderBody .bypass .inbound v r = .ok [⟨r, .item, .item v.bits⟩]) ∧
  (∀ (t : Txt) (s : BitString), render t (.item s) = "BYPASS: " ++ bitsText s) ∧ channelIndex .item = 0 ∧
  (∀ (c : Capture) (s : State), dispatchState s = .known .bypass →
    ∃ t, exec (.driBypass c) s = .next t ∧ t.ls = .known .idle)

/-- R107, R109: DPACC and APACC requests: the dispatch words (operands: log entry 7), the fields, the summary and its text,
the errors, and no completion. The set and order of the fields are the spec's decision D22 (log entry 19), the form of the
address D25 (20), the polarity of RnW D26 (21). -/
def Obligations.AccessRequestDecoder : Prop :=
  (∃ c, decodeTableWord 7 0b0111000 = some (.driDpacc c)) ∧
  (∃ c, decodeTableWord 7 0b0111001 = some (.driApacc c)) ∧
  (∀ (x : LState) (reg : Symbol), (x = .dpacc ∧ reg = .dpacc) ∨ (x = .apacc ∧ reg = .apacc) →
    ∀ (v : Capture) (r : SampleRange) (n len : Nat), n = val v.bits → len = v.bits.length →
      (len < 3 → decoderBody x .inbound v r = .error .outOfRange) ∧
      (len = 3 → decoderBody x .inbound v r = .error .malformedField) ∧
      (3 < len → decoderBody x .inbound v r = .ok
        [⟨⟨(srAt v.sr 3).ss, (srAt v.sr (len - 1)).es⟩, .field, .field reg .inbound .data (n / 2 ^ 3) (len - 1) 3⟩,
         ⟨⟨(srAt v.sr 1).ss, (srAt v.sr 2).es⟩, .field, .field reg .inbound .address (n / 2 % 4) 2 1⟩,
         ⟨⟨(srAt v.sr 0).ss, (srAt v.sr 0).es⟩, .field, .field reg .inbound .readWrite (n % 2) 0 0⟩,
         ⟨r, .command, .cmd (.accessIn reg (n / 2 ^ 3) (n / 2 % 4) (n % 2))⟩])) ∧
  (∀ (t : Txt) (reg : Symbol) (data a rnw : Nat), render t (.cmd (.accessIn reg data a rnw)) =
    "New transaction: DATA: " ++ hex data ++ ", A: " ++ hex a ++ ", RnW: " ++
      (if rnw = 1 then "Read" else "Write") ++ " request") ∧
  (∀ reg n, reg = .dpacc ∨ reg = .apacc →
    fieldValueText reg .data n = hex n ∧ fieldValueText reg .address n = hex n ∧
    fieldValueText reg .readWrite n = bitchar n) ∧
  (∀ (c : Capture) (s : State), dispatchState s = .known .dpacc →
    ∃ t, exec (.driDpacc c) s = .next t ∧ t.ls = .known .dpacc) ∧
  (∀ (c : Capture) (s : State), dispatchState s = .known .apacc →
    ∃ t, exec (.driApacc c) s = .next t ∧ t.ls = .known .apacc)

/-- R108, R110: DPACC and APACC results: the dispatch words (operands: log entry 7), the fields, the summary, the
acknowledge map, the errors, and the completion. The set and order of the fields are the spec's decision D22 (log entry 19),
the completion of a degraded decode its D29 (22). -/
def Obligations.AccessResultDecoder : Prop :=
  (∃ c, decodeTableWord 7 0b1001000 = some (.droDpacc c)) ∧
  (∃ c, decodeTableWord 7 0b1001001 = some (.droApacc c)) ∧
  (∀ (x : LState) (reg : Symbol), (x = .dpacc ∧ reg = .dpacc) ∨ (x = .apacc ∧ reg = .apacc) →
    ∀ (v : Capture) (r : SampleRange) (n len : Nat), n = val v.bits → len = v.bits.length →
      (len < 3 → decoderBody x .outbound v r = .error .outOfRange) ∧
      (len = 3 → decoderBody x .outbound v r = .error .malformedField) ∧
      (3 < len → decoderBody x .outbound v r = .ok
        [⟨⟨(srAt v.sr 3).ss, (srAt v.sr (len - 1)).es⟩, .field, .field reg .outbound .data (n / 2 ^ 3) (len - 1) 3⟩,
         ⟨⟨(srAt v.sr 0).ss, (srAt v.sr 2).es⟩, .field, .field reg .outbound .ack (n % 8) 2 0⟩,
         ⟨r, .command, .cmd (.accessOut reg (n / 2 ^ 3) (n % 8))⟩])) ∧
  (∀ (t : Txt) (reg : Symbol) (data ack : Nat), render t (.cmd (.accessOut reg data ack)) =
    "Previous transaction result: DATA: " ++ hex data ++ ", ACK: " ++ ackName ack) ∧
  (∀ reg n, reg = .dpacc ∨ reg = .apacc →
    fieldValueText reg .data n = hex n ∧ fieldValueText reg .ack n = hex n) ∧
  ackName 1 = "WAIT" ∧ ackName 2 = "OK/FAULT" ∧ (∀ n, n ≠ 1 → n ≠ 2 → ackName n = "Reserved") ∧
  (∀ (c : Capture) (s : State), dispatchState s = .known .dpacc →
    ∃ t, exec (.droDpacc c) s = .next t ∧ t.ls = .known .idle) ∧
  (∀ (c : Capture) (s : State), dispatchState s = .known .apacc →
    ∃ t, exec (.droApacc c) s = .next t ∧ t.ls = .known .idle)

/-- R111: the dispatch word (operands: log entry 7), the inbound fields of dtmcs, on every inbound record (D21) from 18 bits
on (D20; log entry 18), their renderings, the summary and no completion. The set and order of the fields are the spec's
decision D22 (log entry 19), the text of the summary its D24 (20). -/
def Obligations.DtmcsStatusDecoder : Prop :=
  (∃ c, decodeTableWord 7 0b0110110 = some (.driDtmcs c)) ∧
  (∀ (v : Capture) (r : SampleRange) (n : Nat), n = val v.bits →
    (v.bits.length < 18 → decoderBody .dtmcs .inbound v r = .error .outOfRange) ∧
    (18 ≤ v.bits.length → decoderBody .dtmcs .inbound v r = .ok
      [⟨⟨(srAt v.sr 0).ss, (srAt v.sr 3).es⟩, .field, .field .dtmcs .inbound .version (n % 2 ^ 4) 3 0⟩,
       ⟨⟨(srAt v.sr 4).ss, (srAt v.sr 9).es⟩, .field, .field .dtmcs .inbound .abits (n / 2 ^ 4 % 2 ^ 6) 9 4⟩,
       ⟨⟨(srAt v.sr 10).ss, (srAt v.sr 11).es⟩, .field, .field .dtmcs .inbound .dmistat (n / 2 ^ 10 % 2 ^ 2) 11 10⟩,
       ⟨⟨(srAt v.sr 12).ss, (srAt v.sr 14).es⟩, .field, .field .dtmcs .inbound .idle (n / 2 ^ 12 % 2 ^ 3) 14 12⟩,
       ⟨r, .command,
         .cmd (.dtmcsIn (n % 2 ^ 4) (n / 2 ^ 4 % 2 ^ 6) (n / 2 ^ 10 % 2 ^ 2) (n / 2 ^ 12 % 2 ^ 3))⟩])) ∧
  (∀ ver ab st idl, render defaultTxt (.cmd (.dtmcsIn ver ab st idl)) =
    "in dtmcs: version: " ++ hex ver ++ " abits: " ++ hex ab ++ " dmistat: " ++ hex st ++ " idle: " ++ hex idl) ∧
  (∀ n, fieldValueText .dtmcs .version n = hex n ∧ fieldValueText .dtmcs .abits n = hex n ∧
    fieldValueText .dtmcs .dmistat n = hex n ∧ fieldValueText .dtmcs .idle n = hex n) ∧
  (∀ (c : Capture) (s : State), dispatchState s = .known .dtmcs →
    ∃ t, exec (.driDtmcs c) s = .next t ∧ t.ls = .known .dtmcs)

/-- R112: the dispatch word (operands: log entry 7), the outbound fields of dtmcs (their set and order: D22, log entry 19),
their renderings, the summary (its text: D24, log entry 20), the error below 18 bits (D20, log entry 18), and no
completion. -/
def Obligations.DtmcsResetDecoder : Prop :=
  (∃ c, decodeTableWord 7 0b1000110 = some (.droDtmcs c)) ∧
  (∀ (v : Capture) (r : SampleRange) (n : Nat), n = val v.bits →
    (v.bits.length < 18 → decoderBody .dtmcs .outbound v r = .error .outOfRange) ∧
    (18 ≤ v.bits.length → decoderBody .dtmcs .outbound v r = .ok
      [⟨⟨(srAt v.sr 16).ss, (srAt v.sr 16).es⟩, .field, .field .dtmcs .outbound .dmireset (n / 2 ^ 16 % 2) 16 16⟩,
       ⟨⟨(srAt v.sr 17).ss, (srAt v.sr 17).es⟩, .field, .field .dtmcs .outbound .dmihardreset (n / 2 ^ 17 % 2) 17 17⟩,
       ⟨r, .command, .cmd (.dtmcsOut (n / 2 ^ 16 % 2) (n / 2 ^ 17 % 2))⟩])) ∧
  (∀ dr dh, render defaultTxt (.cmd (.dtmcsOut dr dh)) =
    "out dtmcs: dmireset: " ++ bitchar dr ++ " dmihardreset: " ++ bitchar dh) ∧
  (∀ n, fieldValueText .dtmcs .dmireset n = bitchar n ∧ fieldValueText .dtmcs .dmihardreset n = bitchar n) ∧
  (∀ (c : Capture) (s : State), dispatchState s = .known .dtmcs →
    ∃ t, exec (.droDtmcs c) s = .next t ∧ t.ls = .known .dtmcs)

/-- R113, R114, R48: dmi in both directions: the dispatch words (operands: log entry 7), split above 34 bits, raw from 1 to
34, refused when nothing is left after stripping, the renderings, and no completion. The set and order of the fields are the
spec's decision D22, that the raw form has none its D40 (log entry 19), the texts its D24 and D28 (log entry 20). That a
one-bit address renders in hexadecimal is the model's reading (log entry 20). -/
def Obligations.DmiDecoderSplitsAboveThirtyFourBits : Prop :=
  (∃ c, decodeTableWord 7 0b0110111 = some (.driDmi c)) ∧
  (∃ c, decodeTableWord 7 0b1000111 = some (.droDmi c)) ∧
  (∀ (d : Dir) (v : Capture) (r : SampleRange) (n len : Nat), n = val v.bits → len = v.bits.length →
    (34 < len → decoderBody .dmi d v r = .ok
      [⟨⟨(srAt v.sr 34).ss, (srAt v.sr (len - 1)).es⟩, .field, .field .dmi d .address (n / 2 ^ 34) (len - 1) 34⟩,
       ⟨⟨(srAt v.sr 2).ss, (srAt v.sr 33).es⟩, .field, .field .dmi d .data (n / 2 ^ 2 % 2 ^ 32) 33 2⟩,
       ⟨⟨(srAt v.sr 0).ss, (srAt v.sr 1).es⟩, .field, .field .dmi d .op (n % 2 ^ 2) 1 0⟩,
       ⟨r, .command, .cmd (.dmiSplit d (n % 2 ^ 2) (n / 2 ^ 34) (n / 2 ^ 2 % 2 ^ 32))⟩]) ∧
    (1 ≤ len → len ≤ 34 → decoderBody .dmi d v r = .ok [⟨r, .command, .cmd (.dmiRaw d n)⟩]) ∧
    (len = 0 → decoderBody .dmi d v r = .error .malformedField)) ∧
  (∀ dir op ad data, render defaultTxt (.cmd (.dmiSplit dir op ad data)) =
    (if dir = .inbound then "in" else "out") ++ " instr: " ++ hex op ++ " addr: " ++ hex ad ++ " data: " ++ hex data) ∧
  (∀ dir n, render defaultTxt (.cmd (.dmiRaw dir n)) = (if dir = .inbound then "in" else "out") ++ " raw: " ++ hex n) ∧
  (∀ n, fieldValueText .dmi .address n = hex n ∧ fieldValueText .dmi .data n = hex n ∧
    fieldValueText .dmi .op n = hex n) ∧
  (∀ (c : Capture) (s : State), dispatchState s = .known .dmi →
    (∃ t, exec (.driDmi c) s = .next t ∧ t.ls = .known .dmi) ∧
    (∃ t, exec (.droDmi c) s = .next t ∧ t.ls = .known .dmi))

/-- R93: the decoder reads the capture without its `LEAD_STRIP` last-shifted bits; the event range is that of the capture as
received. `LEAD_STRIP` is the spec's decision D19, the range its D36 (log entries 13, 17). -/
def Obligations.LeadBitsAreStrippedBeforeDecoding : Prop :=
  ∀ (cfg : Config) (x : LState) (d : Dir) (c : Capture) (k : Nat), k = cfg.leadStrip.get x →
    (c.bits.length < k → tryDecode cfg x d c = .error .outOfRange) ∧
    (k ≤ c.bits.length → ∃ v : Capture,
      tryDecode cfg x d c = decoderBody x d v (evr c) ∧ v.bits.length = c.bits.length - k ∧
      val v.bits = val c.bits % 2 ^ (c.bits.length - k) ∧
      ∀ i, i < c.bits.length - k → srAt v.sr i = srAt c.sr i)

/-- R129: exactly when a decoder raises OutOfRange. `LEAD_STRIP` is the spec's decision D19 (log entry 17), the 18 bits of
dtmcs in both directions its D20 (18). -/
def Obligations.OutOfRangeExactlyBelowTheMinimumLengths : Prop :=
  ∀ (cfg : Config) (x : LState) (d : Dir) (c : Capture) (k len : Nat),
    expects x d = true → k = cfg.leadStrip.get x → len = c.bits.length →
    (tryDecode cfg x d c = .error .outOfRange ↔
      (len < k ∨ (x = .idcode ∧ len - k < 32) ∨ (x = .abort ∧ len - k < 32) ∨ (x = .dpacc ∧ len - k < 3) ∨
        (x = .apacc ∧ len - k < 3) ∨ (x = .dtmcs ∧ len - k < 18)))

/-- R128, an inference of the spec: exactly when a decoder raises MalformedField. `LEAD_STRIP` is the spec's decision D19 (log
entry 17). -/
def Obligations.MalformedFieldExactlyWhereAFieldIsEmpty : Prop :=
  ∀ (cfg : Config) (x : LState) (d : Dir) (c : Capture) (k len : Nat),
    expects x d = true → k = cfg.leadStrip.get x → len = c.bits.length →
    (tryDecode cfg x d c = .error .malformedField ↔
      (k ≤ len ∧ (((x = .dpacc ∨ x = .apacc) ∧ len - k = 3) ∨ (x = .dmi ∧ len - k = 0))))

/-! ## The effect of each instruction

Each states the whole next state, so it is also the instruction's completion and its frame. The event-entry annotation
(D16), the order of the annotations (D22), the event range (D3), `armed` (D9, D11, D12) and the completion after a degraded
decode (D29, D37) are the spec's decisions: log entries 13, 14, 16, 19, 22. -/

/-- R81, R82: TAP reset and the other TAP-state changes. `armed <- false` is D11 (log entry 14), the absence of other
annotations D17 (log entry 16). -/
def Obligations.StateChangeEffect : Prop :=
  ∀ (name : String) (rng : SampleRange) (s : State),
    exec (.stReset rng) s = .next { recordEffect s rng s.ls (.known .reset) [] with armed := false } ∧
    exec (.stOther name rng) s = .next (recordEffect s rng s.ls s.ls [])

/-- R84, R85: a continuous IR load selects its state at once and cancels what is owed. -/
def Obligations.ContinuousLoadEffect : Prop :=
  ∀ (c : Capture) (s : State),
    exec (.irDtmcs c) s =
      .next { recordEffect s (evr c) s.ls (.known .dtmcs) [] with armed := false, irsym := .dtmcs } ∧
    exec (.irDmi c) s =
      .next { recordEffect s (evr c) s.ls (.known .dmi) [] with armed := false, irsym := .dmi }

/-- R86 to R91: a one-shot IR load sets `irsym` and `armed`, and leaves `ls`. -/
def Obligations.OneShotLoadEffect : Prop :=
  ∀ (c : Capture) (s : State),
    exec (.irBypass c) s = .next { recordEffect s (evr c) s.ls s.ls [] with armed := true, irsym := .bypass } ∧
    exec (.irBypassZero c) s = .next { recordEffect s (evr c) s.ls s.ls [] with armed := true, irsym := .bypass } ∧
    exec (.irIdcode c) s = .next { recordEffect s (evr c) s.ls s.ls [] with armed := true, irsym := .idcode } ∧
    exec (.irAbort c) s = .next { recordEffect s (evr c) s.ls s.ls [] with armed := true, irsym := .abort } ∧
    exec (.irDpacc c) s = .next { recordEffect s (evr c) s.ls s.ls [] with armed := true, irsym := .dpacc } ∧
    exec (.irApacc c) s = .next { recordEffect s (evr c) s.ls s.ls [] with armed := true, irsym := .apacc } ∧
    exec (.irUnknown c) s = .next { recordEffect s (evr c) s.ls s.ls [] with armed := true, irsym := .unknown }

/-- R92 to R94 for the decoders that complete: owed transition, body or one diagnostic, back to Idle. -/
def Obligations.CompletingDecodeEffect : Prop :=
  ∀ (c : Capture) (s : State),
    (dispatchState s = .known .bypass → exec (.driBypass c) s =
      .next { recordEffect s (evr c) (.known .bypass) (.known .idle) (bodyOrDegraded s.cfg .bypass .inbound c) with
        armed := false }) ∧
    (dispatchState s = .known .idcode → exec (.droIdcode c) s =
      .next { recordEffect s (evr c) (.known .idcode) (.known .idle) (bodyOrDegraded s.cfg .idcode .outbound c) with
        armed := false }) ∧
    (dispatchState s = .known .abort → exec (.driAbort c) s =
      .next { recordEffect s (evr c) (.known .abort) (.known .idle) (bodyOrDegraded s.cfg .abort .inbound c) with
        armed := false }) ∧
    (dispatchState s = .known .unknown → exec (.driUnknown c) s =
      .next { recordEffect s (evr c) (.known .unknown) (.known .idle) (bodyOrDegraded s.cfg .unknown .inbound c) with
        armed := false }) ∧
    (dispatchState s = .known .dpacc → exec (.droDpacc c) s =
      .next { recordEffect s (evr c) (.known .dpacc) (.known .idle) (bodyOrDegraded s.cfg .dpacc .outbound c) with
        armed := false }) ∧
    (dispatchState s = .known .apacc → exec (.droApacc c) s =
      .next { recordEffect s (evr c) (.known .apacc) (.known .idle) (bodyOrDegraded s.cfg .apacc .outbound c) with
        armed := false })

/-- R92 to R94 for the decoders that keep their state: DPACC and APACC inbound, dtmcs and dmi. -/
def Obligations.ContinuingDecodeEffect : Prop :=
  ∀ (c : Capture) (s : State),
    (dispatchState s = .known .dpacc → exec (.driDpacc c) s =
      .next { recordEffect s (evr c) (.known .dpacc) (.known .dpacc) (bodyOrDegraded s.cfg .dpacc .inbound c) with
        armed := false }) ∧
    (dispatchState s = .known .apacc → exec (.driApacc c) s =
      .next { recordEffect s (evr c) (.known .apacc) (.known .apacc) (bodyOrDegraded s.cfg .apacc .inbound c) with
        armed := false }) ∧
    (dispatchState s = .known .dtmcs →
      exec (.driDtmcs c) s =
        .next { recordEffect s (evr c) (.known .dtmcs) (.known .dtmcs) (bodyOrDegraded s.cfg .dtmcs .inbound c) with
          armed := false } ∧
      exec (.droDtmcs c) s =
        .next { recordEffect s (evr c) (.known .dtmcs) (.known .dtmcs) (bodyOrDegraded s.cfg .dtmcs .outbound c) with
          armed := false }) ∧
    (dispatchState s = .known .dmi →
      exec (.driDmi c) s =
        .next { recordEffect s (evr c) (.known .dmi) (.known .dmi) (bodyOrDegraded s.cfg .dmi .inbound c) with
          armed := false } ∧
      exec (.droDmi c) s =
        .next { recordEffect s (evr c) (.known .dmi) (.known .dmi) (bodyOrDegraded s.cfg .dmi .outbound c) with
          armed := false })

/-- R100, R102, R104, R106, and R97 for Idle (D13, log entry 15): a record of a direction that the dispatch state does not
expect takes the owed transition and nothing else. -/
def Obligations.UnexpectedDirectionIsIgnored : Prop :=
  ∀ (c : Capture) (s : State),
    (dispatchState s = .known .bypass → exec (.droBypass c) s =
      .next { recordEffect s (evr c) (.known .bypass) (.known .bypass) [] with armed := false }) ∧
    (dispatchState s = .known .idcode → exec (.driIdcode c) s =
      .next { recordEffect s (evr c) (.known .idcode) (.known .idcode) [] with armed := false }) ∧
    (dispatchState s = .known .abort → exec (.droAbort c) s =
      .next { recordEffect s (evr c) (.known .abort) (.known .abort) [] with armed := false }) ∧
    (dispatchState s = .known .unknown → exec (.droUnknown c) s =
      .next { recordEffect s (evr c) (.known .unknown) (.known .unknown) [] with armed := false }) ∧
    (dispatchState s = .known .idle →
      exec (.driIdle c) s = .next { recordEffect s (evr c) (.known .idle) (.known .idle) [] with armed := false } ∧
      exec (.droIdle c) s = .next { recordEffect s (evr c) (.known .idle) (.known .idle) [] with armed := false })

/-- R98 (D14, log entry 15): in Reset one DR record is consumed, in either direction; the state returns to Idle. -/
def Obligations.ResetConsumesOneDataRecord : Prop :=
  ∀ (c : Capture) (s : State), dispatchState s = .known .reset →
    exec (.driReset c) s = .next { recordEffect s (evr c) (.known .reset) (.known .idle) [] with armed := false } ∧
    exec (.droReset c) s = .next { recordEffect s (evr c) (.known .reset) (.known .idle) [] with armed := false }

/-- R95, R135: in a state that is none of the ten, one diagnostic annotation over the event range, no state change. That
`State` can hold such a code is the model's choice (log entry 3). -/
def Obligations.UnhandledStateEmitsOneDiagnostic : Prop :=
  ∀ (k : Fin 6) (c : Capture) (s : State), dispatchState s = .spare k →
    exec (.driUnhandled k c) s = .next
      { recordEffect s (evr c) (.spare k) (.spare k) [⟨evr c, .diagnostic, .unhandled k⟩] with armed := false } ∧
    exec (.droUnhandled k c) s = .next
      { recordEffect s (evr c) (.spare k) (.spare k) [⟨evr c, .diagnostic, .unhandled k⟩] with armed := false }

/-- R77 (D5) and R72 (D4), log entries 10, 11: nothing changes, not even the first announcement is made. -/
def Obligations.DroppedRecordsChangeNothing : Prop :=
  ∀ (p : RawCapture) (k : Fin 3) (s : State), exec (.irTdo p) s = .next s ∧ exec (.dropReserved k p) s = .next s

/-! ## Frames and the step -/

/-- The frame of every instruction. R14, R13, R15, R19 (d): the configuration and the waiting records (the model's own
fields, log entries 1, 2) are kept, annotations are only appended, and the flag is not cleared. R10, R83: `irsym` is
written by IR loads only. R9, R11: another TAP-state change and a dropped record leave `ls` and `armed`, a one-shot load
leaves `ls`, and every other instruction leaves nothing owed (D9, D11, log entry 14). -/
def Obligations.EveryInstructionKeepsItsFrame : Prop :=
  ∀ (i : Instr) (s t : State), exec i s = .next t →
    t.cfg = s.cfg ∧ t.input = s.input ∧ (∃ new, t.out = s.out ++ new) ∧ (s.faultIr = true → t.faultIr = true) ∧
    (match i with
      | .irDtmcs _ | .irDmi _ | .irBypass _ | .irBypassZero _ | .irIdcode _ | .irAbort _ | .irDpacc _ | .irApacc _
      | .irUnknown _ => True
      | _ => t.irsym = s.irsym) ∧
    (match i with
      | .stOther _ _ | .irTdo _ | .dropReserved _ _ => t.ls = s.ls ∧ t.armed = s.armed
      | .irBypass _ | .irBypassZero _ | .irIdcode _ | .irAbort _ | .irDpacc _ | .irApacc _ | .irUnknown _ =>
        t.ls = s.ls ∧ t.armed = true
      | _ => t.armed = false)

/-- R117: the numbers of the channels, and which instructions append annotations on which channel. -/
def Obligations.ChannelsAreFixed : Prop :=
  (channelIndex .item = 0 ∧ channelIndex .field = 1 ∧ channelIndex .command = 2 ∧ channelIndex .warning = 3 ∧
    channelIndex .state = 4 ∧ channelIndex .diagnostic = 5) ∧
  ∀ (i : Instr) (s t : State), exec i s = .next t →
    ∃ new, t.out = s.out ++ new ∧ ∀ a ∈ new,
      (match a.payload with
        | .item _ => a.ch = .item ∧ ∃ c, i = .driBypass c
        | .field _ _ _ _ _ _ => a.ch = .field ∧
          (match i with
            | .droIdcode _ | .driAbort _ | .driDpacc _ | .droDpacc _ | .driApacc _ | .droApacc _ | .driDtmcs _
            | .droDtmcs _ | .driDmi _ | .droDmi _ => True
            | _ => False)
        | .cmd _ => a.ch = .command ∧
          (match i with
            | .droIdcode _ | .driAbort _ | .driUnknown _ | .driDpacc _ | .droDpacc _ | .driApacc _ | .droApacc _
            | .driDtmcs _ | .droDtmcs _ | .driDmi _ | .droDmi _ => True
            | _ => False)
        | .warnAbortReserved _ => a.ch = .warning ∧ ∃ c, i = .driAbort c
        | .state _ => a.ch = .state
        | .degraded _ _ _ => a.ch = .diagnostic ∧
          (match i with
            | .driBypass _ | .droIdcode _ | .driAbort _ | .driUnknown _ | .driDpacc _ | .droDpacc _ | .driApacc _
            | .droApacc _ | .driDtmcs _ | .droDtmcs _ | .driDmi _ | .droDmi _ => True
            | _ => False)
        | .unhandled k => a.ch = .diagnostic ∧ ∃ c, i = .driUnhandled k c ∨ i = .droUnhandled k c)

/-- R3: a step is `exec` of the decoded instruction, on the state from which its record has been taken. That an empty queue
leaves the state as it is is the model's reading of R142 (log entry 2). -/
def Obligations.StepRunsTheDecodedInstruction : Prop :=
  (∀ (s : State) (r : Record) (rest : List Record) (i : Instr), s.input = r :: rest →
    decode s.cfg (dispatchState s) r = .ok i → step s = exec i { s with input := rest }) ∧
  (∀ (s : State) (r : Record) (rest : List Record) (e : DecodeError), s.input = r :: rest →
    decode s.cfg (dispatchState s) r = .error e → step s = .next { s with input := rest }) ∧
  (∀ s : State, s.input = [] → step s = .next s)

/-- R138: no cause halts the core: in every state, and for every record, a step answers a next state; the flag gates nothing;
and no cause changes how later records are decoded except through the ordinary completion (R94): two states that agree on
the configuration, `ls`, `irsym`, `armed` and the waiting records agree on them after a step, and a DR record leaves the
same `ls`, `irsym` and `armed` whether its decode succeeds or degrades (R130). That no cause stops the machine and that the
flag is all an invalid range leaves is the spec's decision D30 (log entry 23), the completion of a degraded decode its D29
(22), `armed` its D9 (14), Idle and Reset its D13 and D14 (15). -/
def Obligations.NoCauseHaltsTheCore : Prop :=
  (∀ (i : Instr) (s : State), ∃ t, exec i s = .next t) ∧ (∀ s : State, ∃ t, step s = .next t) ∧
  (∀ (s t : State) (flag : Bool), step s = .next t →
    ∃ t', step { s with faultIr := flag } = .next t' ∧ { t' with faultIr := t.faultIr } = t) ∧
  (∀ s s' t t' : State, s'.cfg = s.cfg → s'.ls = s.ls → s'.irsym = s.irsym → s'.armed = s.armed → s'.input = s.input →
    step s = .next t → step s' = .next t' →
    t'.cfg = t.cfg ∧ t'.ls = t.ls ∧ t'.irsym = t.irsym ∧ t'.armed = t.armed ∧ t'.input = t.input) ∧
  (∀ (s t : State) (r : Record) (rest : List Record) (c : Capture) (d : Dir), s.input = r :: rest →
    classify r = some (match d with | .inbound => .drShiftIn c | .outbound => .drShiftOut c) → step s = .next t →
    t.ls = lsAfterDr d (dispatchState s) ∧ t.irsym = s.irsym ∧ t.armed = false)

/-- The transition table of `43_tracker.md` section 5, for every state and every accepted record. The flag `armed` and what
clears it are the spec's decisions D9, D11, D12 (log entry 14), Idle and Reset its D13, D14 (15), the completion of a degraded
decode its D29 (22). -/
def Obligations.TransitionTableHolds : Prop :=
  ∀ (s : State) (r : Record) (rest : List Record) (ev : TapEvent), s.input = r :: rest → classify r = some ev →
    ∃ t, step s = .next t ∧ (t.ls, t.irsym, t.armed) = trackerAfter s.cfg s.ls s.irsym s.armed ev

/-- R39, an inference of the spec: after an IR load the next DR record is dispatched under the loaded selection, whatever
the state was (D9, D12, log entry 14). -/
def Obligations.IrLoadSelectsTheNextDispatch : Prop :=
  ∀ (s : State) (r : Record) (rest : List Record) (c : Capture), s.input = r :: rest →
    classify r = some (.irLoad c) →
    ∃ t, step s = .next t ∧ dispatchState t = .known (stateOf (irLookup s.cfg c.bits).1)

/-- R147, R97 (D13, log entry 15): a state that a completed one-shot decode leaves ignores every further DR record: nothing
changes but that the record is taken. -/
def Obligations.ACompletedSelectionIsSpent : Prop :=
  ∀ (s : State) (r : Record) (rest : List Record) (c : Capture),
    s.ls = .known .idle → s.armed = false → s.last = some (.known .idle) → s.input = r :: rest →
    classify r = some (.drShiftIn c) ∨ classify r = some (.drShiftOut c) →
    step s = .next { s with input := rest }

/-- R126, an inference of the spec: while no range is invalid, the state annotations of a record name exactly the values
that `ls` takes, each where it differs from the one before (D16, log entry 16). -/
def Obligations.StateAnnotationsFollowLs : Prop :=
  ∀ (s t : State) (r : Record) (rest : List Record) (ev : TapEvent) (via : Ls),
    s.input = r :: rest → classify r = some ev → s.last = some s.ls → step s = .next t → t.faultIr = false →
    via = (match ev with
      | .drShiftIn _ => dispatchState s
      | .drShiftOut _ => dispatchState s
      | _ => s.ls) →
    stateNames t.out =
      stateNames s.out ++ (if via = s.ls then [] else [via]) ++ (if t.ls = via then [] else [t.ls])

/-! ## Invariants, safety, noninterference -/

/-- The invariant holds in the power-on state (its values: D10, log entry 5). -/
def Obligations.InvariantHoldsAtReset : Prop := MachineInv State.reset

/-- R9, R12, R19 (a), (b), R116, R117, R126: every step keeps the invariant: `ls` is one of the ten states, `armed` implies a
one-shot symbol, every annotation has a valid range, its payload's channel and its payload's text, `last` is the state of
the newest state annotation, no two neighbouring state annotations are equal, and the state is announced unless a range
was invalid. The flag `armed` is the spec's decision D9 (log entry 14), when states are announced its D16 (16), the one text
its D41 (20), the sticky flag its D30 (23). -/
def Obligations.EveryStepKeepsTheInvariant : Prop :=
  ∀ s t : State, MachineInv s → step s = .next t → MachineInv t

/-- R132, an inference of the spec: a record whose ranges are valid and do not decrease in shift order never raises
InvalidRange, in any state. The event range is the spec's decision D3 (log entry 13), the flag its D30 (23). -/
def Obligations.ValidRangesNeverRaiseTheFlag : Prop :=
  ∀ (s t : State) (r : Record) (rest : List Record), s.input = r :: rest → recordRangesOk r = true →
    step s = .next t → t.faultIr = s.faultIr

/-- R19 (a), (d), R132 along a run: from a state that meets the invariant with the flag clear, any number of steps on records
with valid ranges runs through, keeps the invariant and the flag clear. The decisions are those of the two statements
before (log entries 13, 14, 16, 20, 23); the waiting records are the model's own field (log entry 2). -/
def Obligations.RunsOnValidRangesStayFaultFree : Prop :=
  ∀ (n : Nat) (s : State), MachineInv s → s.faultIr = false → (∀ r ∈ s.input, recordRangesOk r = true) →
    ∃ t, Sys2Proof.core.run n s = .next t ∧ MachineInv t ∧ t.faultIr = false

/-- R37: records act in arrival order: after the first records are taken, the state is what those records alone give, with
the later ones still waiting. The waiting records are the model's own field (log entry 2). -/
def Obligations.StateDependsOnEarlierRecordsOnly : Prop :=
  ∀ (s : State) (now later : List Record), s.input = now →
    ∃ t, Sys2Proof.core.run now.length s = .next t ∧ t.input = [] ∧
      Sys2Proof.core.run now.length { s with input := now ++ later } = .next { t with input := later }

/-- R14: no rule reads the output trace, which is kept in the state (log entry 33). -/
def Obligations.OutputIsNeverRead : Prop :=
  ∀ (s t : State) (before : List Annotation), step s = .next t →
    step { s with out := before ++ s.out } = .next { t with out := before ++ t.out }

/-- R10: `irsym` is read only while `armed` is true (the flag: D9, log entry 14). -/
def Obligations.IrsymIsReadOnlyWhileArmed : Prop :=
  ∀ (s t : State) (sym : Symbol), s.armed = false → step s = .next t →
    ∃ t', step { s with irsym := sym } = .next t' ∧
      { t' with irsym := t.irsym } = t ∧ (t'.irsym = t.irsym ∨ t'.irsym = sym)

/-- R52, an inference of the spec: under the default configuration (log entry 6) the states Abort, Dpacc and Apacc are never
entered, and their symbols never loaded. -/
def Obligations.DefaultCatalogNeverSelectsTheArmRegisters : Prop :=
  riscvOnly State.reset ∧ ∀ s t : State, riscvOnly s → step s = .next t → riscvOnly t
end

