-- ==== Sys2Proof/Laws/Operands.lean ====
section
/-! SUPPORT. The small lemmas of the bitfield primitives. -/

namespace Sys2Proof.Machine

@[simp] theorem val_nil : val [] = 0 := rfl

theorem val_cons (b : Bool) (s : BitString) : val (b :: s) = b.toNat * 2 ^ s.length + val s := rfl

/-- A value is below `2^L` (R63). -/
theorem val_lt (s : BitString) : val s < 2 ^ s.length := by
  induction s with
  | nil => simp
  | cons b s ih =>
    cases b <;> simp only [val_cons, List.length_cons, Nat.pow_succ, Bool.toNat_false, Bool.toNat_true] <;> omega

/-- The value of a concatenation: the first string spells the high bits. -/
theorem val_append (s t : BitString) : val (s ++ t) = val s * 2 ^ t.length + val t := by
  induction s with
  | nil => simp
  | cons b s ih =>
    simp only [List.cons_append, val_cons, ih, List.length_append, Nat.pow_add, Nat.add_mul, Nat.mul_assoc,
      Nat.add_assoc]

/-- A prefix is what is left when the low bits are shifted out. -/
theorem val_take (s : BitString) (n : Nat) : val (s.take n) = val s / 2 ^ (s.length - n) := by
  have h := val_append (s.take n) (s.drop n)
  rw [List.take_append_drop, List.length_drop] at h
  have hlt := val_lt (s.drop n)
  rw [List.length_drop] at hlt
  rw [h, Nat.mul_comm, Nat.mul_add_div (Nat.two_pow_pos _), Nat.div_eq_of_lt hlt, Nat.add_zero]

/-- A suffix is the value modulo the power of two of its length. -/
theorem val_drop (s : BitString) (n : Nat) : val (s.drop n) = val s % 2 ^ (s.length - n) := by
  have h := val_append (s.take n) (s.drop n)
  rw [List.take_append_drop, List.length_drop] at h
  have hlt := val_lt (s.drop n)
  rw [List.length_drop] at hlt
  rw [h, Nat.mul_add_mod_self_right, Nat.mod_eq_of_lt hlt]

theorem field_lt (s : BitString) (hi lo : Nat) : field s hi lo < 2 ^ (hi - lo + 1) :=
  Nat.mod_lt _ (Nat.two_pow_pos _)

theorem toUnsignedInt_of_ne_nil {x : BitString} (h : x ≠ []) : toUnsignedInt x = .ok (val x) := by
  cases x <;> simp_all [toUnsignedInt]

/-- `slice` in terms of its two normalised indices (R60 to R62). -/
theorem slice_eq {s : BitString} {start stop a b : Int} (ha : normIndex s.length start = a)
    (hb : normIndex s.length stop = b) :
    slice s start stop =
      if a < 0 ∨ a > s.length ∨ b < 0 ∨ b > s.length then .error .outOfRange
      else if a > b then .error .malformedField
      else .ok ((s.take b.toNat).drop a.toNat) := by
  subst ha hb
  rfl

/-- Stripping nothing. -/
theorem stripLead_zero (c : Capture) (h : c.sr.length = c.bits.length) : stripLead 0 c = .ok c := by
  cases c
  simp_all [stripLead, ← h]

end Sys2Proof.Machine
end

