-- ==== Sys2Proof/Laws/Decode.lean ====
section
/-! SUPPORT. The small lemmas of the classifier and the encoder. -/

namespace Sys2Proof

@[simp] theorem parseBit_bitChar (b : Bool) : parseBit (Machine.bitChar b) = some b := by
  cases b <;> decide

/-- A spelled bit string is read back. -/
@[simp] theorem parseBits_map_bitChar (bits : BitString) : parseBits (bits.map Machine.bitChar) = some bits := by
  induction bits with
  | nil => rfl
  | cons b bits ih => simp [parseBits, ih]

/-- What is read spells the characters. -/
theorem map_bitChar_of_parseBits {cs : List Char} {bits : BitString} (h : parseBits cs = some bits) :
    bits.map Machine.bitChar = cs := by
  induction cs generalizing bits with
  | nil => simp [parseBits] at h; simp [← h]
  | cons ch cs ih =>
    simp only [parseBits] at h
    cases hb : parseBit ch with
    | none => simp [hb] at h
    | some b =>
      cases hbs : parseBits cs with
      | none => simp [hb, hbs] at h
      | some bs =>
        simp only [hb, hbs, Option.some.injEq] at h
        have hch : Machine.bitChar b = ch := by
          unfold parseBit at hb
          split at hb
          · cases hb; simp [*, Machine.bitChar]
          · split at hb
            · cases hb; simp [*, Machine.bitChar]
            · cases hb
        simp [← h, hch, ih hbs]

/-- The classifier undoes `rawOf`. -/
theorem classifyCapture_rawOf {c : Capture} (h : c.wellFormed = true) : classifyCapture (rawOf c) = .ok c := by
  simp only [Capture.wellFormed, Bool.and_eq_true, Bool.not_eq_true', beq_iff_eq, List.isEmpty_eq_false_iff] at h
  obtain ⟨bits, sr⟩ := c
  simp_all [classifyCapture, rawOf]

/-- What the classifier accepts: a well-formed capture, of which the payload is the spelling. -/
theorem classifyCapture_ok {p : RawCapture} {c : Capture} (h : classifyCapture p = .ok c) :
    c.wellFormed = true ∧ rawOf c = p := by
  obtain ⟨chars, ranges⟩ := p
  unfold classifyCapture at h
  split at h
  · cases h
  · split at h
    · cases h
    · rename_i hne hlen
      cases hp : parseBits chars with
      | none => simp [hp] at h
      | some bits =>
        simp only [hp, Except.ok.injEq] at h
        have hm := map_bitChar_of_parseBits hp
        have hl : bits.length = chars.length := by rw [← hm]; simp
        subst h
        refine ⟨?_, by simp [rawOf, hm]⟩
        simp only [Capture.wellFormed, Bool.and_eq_true, Bool.not_eq_true', beq_iff_eq, List.length_reverse]
        refine ⟨?_, by simp_all⟩
        cases bits <;> cases chars <;> simp_all

/-- The bits of an `ls` code (R21). -/
theorem bitsOfVec_lsCode (x : Ls) : bitsOfVec (Machine.lsCode x) =
    match x with
    | .known .idle => [false, false, false, false]
    | .known .reset => [false, false, false, true]
    | .known .bypass => [false, false, true, false]
    | .known .idcode => [false, false, true, true]
    | .known .abort => [false, true, false, false]
    | .known .unknown => [false, true, false, true]
    | .known .dtmcs => [false, true, true, false]
    | .known .dmi => [false, true, true, true]
    | .known .dpacc => [true, false, false, false]
    | .known .apacc => [true, false, false, true]
    | .spare k => [true, decide (2 ≤ k.val), decide (k.val < 2 ∨ 4 ≤ k.val), decide (k.val % 2 = 1)] := by
  cases x with
  | known x => cases x <;> decide
  | spare k => revert k; decide

end Sys2Proof
end

