-- ==== Sys2Proof/Laws/State.lean ====
section
/-! SUPPORT. One lemma per field and update, true by `rfl`, so that no later proof unfolds a record update. -/

namespace Sys2Proof.Machine

@[simp] theorem arm_cfg (s : State) : (arm s).cfg = s.cfg := rfl
@[simp] theorem arm_ls (s : State) : (arm s).ls = s.ls := rfl
@[simp] theorem arm_irsym (s : State) : (arm s).irsym = s.irsym := rfl
@[simp] theorem arm_armed (s : State) : (arm s).armed = true := rfl
@[simp] theorem arm_last (s : State) : (arm s).last = s.last := rfl
@[simp] theorem arm_faultIr (s : State) : (arm s).faultIr = s.faultIr := rfl
@[simp] theorem arm_out (s : State) : (arm s).out = s.out := rfl
@[simp] theorem arm_input (s : State) : (arm s).input = s.input := rfl

@[simp] theorem disarm_cfg (s : State) : (disarm s).cfg = s.cfg := rfl
@[simp] theorem disarm_ls (s : State) : (disarm s).ls = s.ls := rfl
@[simp] theorem disarm_irsym (s : State) : (disarm s).irsym = s.irsym := rfl
@[simp] theorem disarm_armed (s : State) : (disarm s).armed = false := rfl
@[simp] theorem disarm_last (s : State) : (disarm s).last = s.last := rfl
@[simp] theorem disarm_faultIr (s : State) : (disarm s).faultIr = s.faultIr := rfl
@[simp] theorem disarm_out (s : State) : (disarm s).out = s.out := rfl
@[simp] theorem disarm_input (s : State) : (disarm s).input = s.input := rfl

@[simp] theorem raiseInvalidRange_cfg (s : State) : (raiseInvalidRange s).cfg = s.cfg := rfl
@[simp] theorem raiseInvalidRange_ls (s : State) : (raiseInvalidRange s).ls = s.ls := rfl
@[simp] theorem raiseInvalidRange_irsym (s : State) : (raiseInvalidRange s).irsym = s.irsym := rfl
@[simp] theorem raiseInvalidRange_armed (s : State) : (raiseInvalidRange s).armed = s.armed := rfl
@[simp] theorem raiseInvalidRange_last (s : State) : (raiseInvalidRange s).last = s.last := rfl
@[simp] theorem raiseInvalidRange_faultIr (s : State) : (raiseInvalidRange s).faultIr = true := rfl
@[simp] theorem raiseInvalidRange_out (s : State) : (raiseInvalidRange s).out = s.out := rfl
@[simp] theorem raiseInvalidRange_input (s : State) : (raiseInvalidRange s).input = s.input := rfl

@[simp] theorem takeRecord_cfg (s : State) : (takeRecord s).cfg = s.cfg := rfl
@[simp] theorem takeRecord_ls (s : State) : (takeRecord s).ls = s.ls := rfl
@[simp] theorem takeRecord_irsym (s : State) : (takeRecord s).irsym = s.irsym := rfl
@[simp] theorem takeRecord_armed (s : State) : (takeRecord s).armed = s.armed := rfl
@[simp] theorem takeRecord_last (s : State) : (takeRecord s).last = s.last := rfl
@[simp] theorem takeRecord_faultIr (s : State) : (takeRecord s).faultIr = s.faultIr := rfl
@[simp] theorem takeRecord_out (s : State) : (takeRecord s).out = s.out := rfl
@[simp] theorem takeRecord_input (s : State) : (takeRecord s).input = s.input.tail := rfl

@[simp] theorem placeRecord_cfg (r : Record) (s : State) : (placeRecord r s).cfg = s.cfg := rfl
@[simp] theorem placeRecord_ls (r : Record) (s : State) : (placeRecord r s).ls = s.ls := rfl
@[simp] theorem placeRecord_irsym (r : Record) (s : State) : (placeRecord r s).irsym = s.irsym := rfl
@[simp] theorem placeRecord_armed (r : Record) (s : State) : (placeRecord r s).armed = s.armed := rfl
@[simp] theorem placeRecord_last (r : Record) (s : State) : (placeRecord r s).last = s.last := rfl
@[simp] theorem placeRecord_faultIr (r : Record) (s : State) : (placeRecord r s).faultIr = s.faultIr := rfl
@[simp] theorem placeRecord_out (r : Record) (s : State) : (placeRecord r s).out = s.out := rfl
@[simp] theorem placeRecord_input (r : Record) (s : State) : (placeRecord r s).input = r :: s.input := rfl

end Sys2Proof.Machine
end

