-- ==== Sys2Proof/Laws/Ops.lean ====
section
/-! SUPPORT. What each shared operation can do, said once: a closed form per operation, which later proofs cite in place of
unfolding it. -/

namespace Sys2Proof.Machine

/-- `emit`, as one record update. -/
theorem emit_fst (r : SampleRange) (ch : Channel) (p : Payload) (s : State) :
    (emit r ch p s).1 = { s with
      faultIr := s.faultIr || !rangeOk r
      out := s.out ++ (if rangeOk r then [annotation s.cfg.txt r ch p] else []) } := by
  cases h : rangeOk r <;> simp [emit, h, raiseInvalidRange]

theorem emit_snd (r : SampleRange) (ch : Channel) (p : Payload) (s : State) : (emit r ch p s).2 = rangeOk r := by
  cases h : rangeOk r <;> simp [emit, h]

@[simp] theorem appended_nil (t : Txt) : appended t [] = [] := rfl

theorem appended_append (t : Txt) (es fs : List Emission) : appended t (es ++ fs) = appended t es ++ appended t fs := by
  simp [appended]

/-- One wanted annotation more. -/
theorem appended_cons (t : Txt) (e : Emission) (es : List Emission) :
    appended t (e :: es) =
      (if rangeOk e.rng then [annotation t e.rng e.ch e.payload] else []) ++ appended t es := by
  cases h : rangeOk e.rng <;> simp [appended, h]

/-- `emitAll`: the valid annotations are appended, an invalid one sets the flag, nothing else changes. -/
theorem emitAll_eq (es : List Emission) (s : State) :
    emitAll es s = { s with
      faultIr := s.faultIr || es.any (fun e => !rangeOk e.rng)
      out := s.out ++ appended s.cfg.txt es } := by
  induction es generalizing s with
  | nil => simp [emitAll]
  | cons e es ih =>
    have step : emitAll (e :: es) s = emitAll es (emit e.rng e.ch e.payload s).1 := rfl
    rw [step, ih, appended_cons, emit_fst]
    simp [Bool.or_assoc]

/-- `emitState`, as one record update. -/
theorem emitState_eq (r : SampleRange) (s : State) :
    emitState r s = { s with
      last := if rangeOk r then some s.ls else s.last
      faultIr := s.faultIr || (!decide (s.last = some s.ls) && !rangeOk r)
      out := s.out ++ appended s.cfg.txt (if s.last = some s.ls then [] else [stateNote r s.ls]) } := by
  unfold emitState
  by_cases h : s.last = some s.ls
  · obtain ⟨cfg, ls, irsym, armed, last, faultIr, out, input⟩ := s
    simp_all
  · cases hr : rangeOk r <;> simp [h, hr, emit, appended, stateNote, raiseInvalidRange]

/-- `setls`, as one record update. -/
theorem setls_eq (x : Ls) (r : SampleRange) (s : State) :
    setls x r s = { s with
      ls := x
      last := if rangeOk r then some x else s.last
      faultIr := s.faultIr || (!decide (s.last = some x) && !rangeOk r)
      out := s.out ++ appended s.cfg.txt (if s.last = some x then [] else [stateNote r x]) } := by
  simp [setls, emitState_eq]

/-- `degrade`, as one record update (R130). -/
theorem degrade_eq (x : LState) (e : BitfieldError) (bits : BitString) (r : SampleRange) (s : State) :
    degrade x e bits r s = emitAll [⟨r, .diagnostic, .degraded x e bits⟩] s := rfl

/-- `complete`: `setls Idle` or nothing (R94). -/
theorem complete_cases (x : LState) (d : Dir) (r : SampleRange) (s : State) :
    (completes x d = true ∧ complete x d r s = setls (.known .idle) r s) ∨
      (completes x d = false ∧ complete x d r s = s) := by
  cases h : completes x d <;> simp [complete, h]

/-- Event entry and owed transition together: `ls` becomes the dispatch state, nothing is owed any more. -/
theorem enterDr_ls (r : SampleRange) (s : State) : (enterDr r s).ls = dispatchState s := by
  cases h : s.armed <;> simp [enterDr, owedTransition, emitState_eq, setls_eq, dispatchState, h]

theorem enterDr_armed (r : SampleRange) (s : State) : (enterDr r s).armed = false := by
  cases h : s.armed <;> simp [enterDr, owedTransition, emitState_eq, setls_eq, h]

/-- A DR record that its state's decoder expects: entry, body or diagnostic, completion (R93). -/
theorem dispatchDr_expected (x : LState) (d : Dir) (c : Capture) (s : State) (h : expects x d = true) :
    dispatchDr x d c s = complete x d (evr c) (emitAll (bodyOrDegraded s.cfg x d c) (enterDr (evr c) s)) := by
  cases x <;> first
    | (simp [expects] at h; done)
    | (simp only [dispatchDr, h, if_true, bodyOrDegraded]; cases tryDecode s.cfg _ d c <;> rfl)

/-- A DR record that its state's decoder does not expect: entry only (R93). -/
theorem dispatchDr_ignored (x : LState) (d : Dir) (c : Capture) (s : State) (h : expects x d = false)
    (hx : x ≠ .reset) : dispatchDr x d c s = enterDr (evr c) s := by
  cases x <;> simp_all [dispatchDr]

/-- A DR record in Reset (R98). -/
theorem dispatchDr_reset (d : Dir) (c : Capture) (s : State) :
    dispatchDr .reset d c s = setls (.known .idle) (evr c) (enterDr (evr c) s) := rfl

end Sys2Proof.Machine
end

