-- ==== Sys2Proof/Laws/PerInstr.lean ====
section
/-! SUPPORT. Statements for all instructions, made per instruction. -/

namespace Sys2Proof.Laws.FitsRow

/-- The dispatch word of an instruction's record fits the instruction's row of `spec/opcode_table.json` (R42). -/
def Statement (i : Instr) : Prop :=
  ∀ (cfg : Config) (sel : Ls), i.wellFormed cfg sel = true →
    rowFits (opcodeRow i) (dispatchWord cfg sel (encode cfg i)) = true

/-- The word of an IR load: five free pattern bits if the capture has length 5, none otherwise. -/
theorem irWord (cfg : Config) (sel : Ls) (c : Capture) :
    dispatchWord cfg sel (.irTdi (rawOf c)) =
      [false, false, true] ++ (if c.bits.length = Machine.irWidth then c.bits else []) := by
  have hcmd : bitsOfVec (Machine.cmdCode (.irTdi (rawOf c))) = [false, false, true] := by
    simp only [Machine.cmdCode]; decide
  simp only [dispatchWord, hcmd]
  simp [rawOf]

/-- The word of a DR record: the command and the code of the dispatch state. -/
theorem driWord (cfg : Config) (sel : Ls) (p : RawCapture) :
    dispatchWord cfg sel (.drTdi p) = [false, true, true] ++ bitsOfVec (Machine.lsCode sel) := by
  have hcmd : bitsOfVec (Machine.cmdCode (.drTdi p)) = [false, true, true] := by
    simp only [Machine.cmdCode]; decide
  simp only [dispatchWord, hcmd]

theorem droWord (cfg : Config) (sel : Ls) (p : RawCapture) :
    dispatchWord cfg sel (.drTdo p) = [true, false, false] ++ bitsOfVec (Machine.lsCode sel) := by
  have hcmd : bitsOfVec (Machine.cmdCode (.drTdo p)) = [true, false, false] := by
    simp only [Machine.cmdCode]; decide
  simp only [dispatchWord, hcmd]

/-- An IR capture that the catalog maps to a symbol other than UNKNOWN has length 5 (R52). -/
theorem length_of_known {cfg : Config} {sym : Symbol} {c : Capture} (h : irWellFormed cfg sym c = true)
    (hs : sym ≠ .unknown) : c.bits.length = 5 := by
  simp only [irWellFormed, Bool.and_eq_true, beq_iff_eq, Machine.irLookup, Machine.patternOf, Machine.irWidth] at h
  by_contra hne
  simp only [hne, if_false] at h
  exact hs h.2.symm

/-- Five free pattern bits after the command fit every 5-bit capture. -/
theorem rowFits_ir {bits : BitString} (h : bits.length = 5) :
    rowFits [some false, some false, some true, none, none, none, none, none] ([false, false, true] ++ bits) = true := by
  match bits, h with
  | [_, _, _, _, _], _ => rfl

/-- An IR row other than IR.UNKNOWN. -/
theorem ofKnownSymbol {cfg : Config} {sel : Ls} {sym : Symbol} {c : Capture} (h : irWellFormed cfg sym c = true)
    (hs : sym ≠ .unknown) :
    rowFits [some false, some false, some true, none, none, none, none, none]
      (dispatchWord cfg sel (.irTdi (rawOf c))) = true := by
  have hl := length_of_known h hs
  rw [irWord, Machine.irWidth, if_pos hl]
  exact rowFits_ir hl

theorem stReset (rng : SampleRange) : Statement (.stReset rng) := by
  intro cfg sel _
  simp [encode, dispatchWord, Machine.cmdCode, opcodeRow, bitsOfVec, List.range, List.range.loop, rowFits]

theorem stOther (name : String) (rng : SampleRange) : Statement (.stOther name rng) := by
  intro cfg sel h
  simp only [Instr.wellFormed, bne_iff_ne, ne_eq] at h
  simp [encode, dispatchWord, Machine.cmdCode, opcodeRow, bitsOfVec, List.range, List.range.loop, rowFits, h]

theorem irDtmcs (c : Capture) : Statement (.irDtmcs c) := by
  intro cfg sel h
  exact ofKnownSymbol h (by decide)

theorem irDmi (c : Capture) : Statement (.irDmi c) := by
  intro cfg sel h
  exact ofKnownSymbol h (by decide)

theorem irBypass (c : Capture) : Statement (.irBypass c) := by
  intro cfg sel h
  simp only [Instr.wellFormed, Bool.and_eq_true] at h
  exact ofKnownSymbol h.1 (by decide)

theorem irBypassZero (c : Capture) : Statement (.irBypassZero c) := by
  intro cfg sel h
  simp only [Instr.wellFormed, Bool.and_eq_true, beq_iff_eq] at h
  simp [encode, irWord, h.2, opcodeRow, zeroPattern, Machine.irWidth, rowFits]

theorem irIdcode (c : Capture) : Statement (.irIdcode c) := by
  intro cfg sel h
  exact ofKnownSymbol h (by decide)

theorem irAbort (c : Capture) : Statement (.irAbort c) := by
  intro cfg sel h
  exact ofKnownSymbol h (by decide)

theorem irDpacc (c : Capture) : Statement (.irDpacc c) := by
  intro cfg sel h
  exact ofKnownSymbol h (by decide)

theorem irApacc (c : Capture) : Statement (.irApacc c) := by
  intro cfg sel h
  exact ofKnownSymbol h (by decide)

theorem irUnknown (c : Capture) : Statement (.irUnknown c) := by
  intro cfg sel h
  simp only [encode, irWord, opcodeRow]
  by_cases hl : c.bits.length = Machine.irWidth
  · simp only [if_pos hl]
    exact rowFits_ir hl
  · simp [if_neg hl, rowFits]

theorem irTdo (p : RawCapture) : Statement (.irTdo p) := by
  intro cfg sel _
  simp [encode, dispatchWord, Machine.cmdCode, opcodeRow, bitsOfVec, List.range, List.range.loop, rowFits]

theorem driIdle (c : Capture) : Statement (.driIdle c) := by
  intro cfg sel h
  simp only [Instr.wellFormed, drWellFormed, Bool.and_eq_true, beq_iff_eq] at h
  simp [encode, driWord, h.2, bitsOfVec_lsCode, opcodeRow, rowFits]

theorem droIdle (c : Capture) : Statement (.droIdle c) := by
  intro cfg sel h
  simp only [Instr.wellFormed, drWellFormed, Bool.and_eq_true, beq_iff_eq] at h
  simp [encode, droWord, h.2, bitsOfVec_lsCode, opcodeRow, rowFits]

theorem driReset (c : Capture) : Statement (.driReset c) := by
  intro cfg sel h
  simp only [Instr.wellFormed, drWellFormed, Bool.and_eq_true, beq_iff_eq] at h
  simp [encode, driWord, h.2, bitsOfVec_lsCode, opcodeRow, rowFits]

theorem droReset (c : Capture) : Statement (.droReset c) := by
  intro cfg sel h
  simp only [Instr.wellFormed, drWellFormed, Bool.and_eq_true, beq_iff_eq] at h
  simp [encode, droWord, h.2, bitsOfVec_lsCode, opcodeRow, rowFits]

theorem driBypass (c : Capture) : Statement (.driBypass c) := by
  intro cfg sel h
  simp only [Instr.wellFormed, drWellFormed, Bool.and_eq_true, beq_iff_eq] at h
  simp [encode, driWord, h.2, bitsOfVec_lsCode, opcodeRow, rowFits]

theorem droBypass (c : Capture) : Statement (.droBypass c) := by
  intro cfg sel h
  simp only [Instr.wellFormed, drWellFormed, Bool.and_eq_true, beq_iff_eq] at h
  simp [encode, droWord, h.2, bitsOfVec_lsCode, opcodeRow, rowFits]

theorem driIdcode (c : Capture) : Statement (.driIdcode c) := by
  intro cfg sel h
  simp only [Instr.wellFormed, drWellFormed, Bool.and_eq_true, beq_iff_eq] at h
  simp [encode, driWord, h.2, bitsOfVec_lsCode, opcodeRow, rowFits]

theorem droIdcode (c : Capture) : Statement (.droIdcode c) := by
  intro cfg sel h
  simp only [Instr.wellFormed, drWellFormed, Bool.and_eq_true, beq_iff_eq] at h
  simp [encode, droWord, h.2, bitsOfVec_lsCode, opcodeRow, rowFits]

theorem driAbort (c : Capture) : Statement (.driAbort c) := by
  intro cfg sel h
  simp only [Instr.wellFormed, drWellFormed, Bool.and_eq_true, beq_iff_eq] at h
  simp [encode, driWord, h.2, bitsOfVec_lsCode, opcodeRow, rowFits]

theorem droAbort (c : Capture) : Statement (.droAbort c) := by
  intro cfg sel h
  simp only [Instr.wellFormed, drWellFormed, Bool.and_eq_true, beq_iff_eq] at h
  simp [encode, droWord, h.2, bitsOfVec_lsCode, opcodeRow, rowFits]

theorem driUnknown (c : Capture) : Statement (.driUnknown c) := by
  intro cfg sel h
  simp only [Instr.wellFormed, drWellFormed, Bool.and_eq_true, beq_iff_eq] at h
  simp [encode, driWord, h.2, bitsOfVec_lsCode, opcodeRow, rowFits]

theorem droUnknown (c : Capture) : Statement (.droUnknown c) := by
  intro cfg sel h
  simp only [Instr.wellFormed, drWellFormed, Bool.and_eq_true, beq_iff_eq] at h
  simp [encode, droWord, h.2, bitsOfVec_lsCode, opcodeRow, rowFits]

theorem driDtmcs (c : Capture) : Statement (.driDtmcs c) := by
  intro cfg sel h
  simp only [Instr.wellFormed, drWellFormed, Bool.and_eq_true, beq_iff_eq] at h
  simp [encode, driWord, h.2, bitsOfVec_lsCode, opcodeRow, rowFits]

theorem droDtmcs (c : Capture) : Statement (.droDtmcs c) := by
  intro cfg sel h
  simp only [Instr.wellFormed, drWellFormed, Bool.and_eq_true, beq_iff_eq] at h
  simp [encode, droWord, h.2, bitsOfVec_lsCode, opcodeRow, rowFits]

theorem driDmi (c : Capture) : Statement (.driDmi c) := by
  intro cfg sel h
  simp only [Instr.wellFormed, drWellFormed, Bool.and_eq_true, beq_iff_eq] at h
  simp [encode, driWord, h.2, bitsOfVec_lsCode, opcodeRow, rowFits]

theorem droDmi (c : Capture) : Statement (.droDmi c) := by
  intro cfg sel h
  simp only [Instr.wellFormed, drWellFormed, Bool.and_eq_true, beq_iff_eq] at h
  simp [encode, droWord, h.2, bitsOfVec_lsCode, opcodeRow, rowFits]

theorem driDpacc (c : Capture) : Statement (.driDpacc c) := by
  intro cfg sel h
  simp only [Instr.wellFormed, drWellFormed, Bool.and_eq_true, beq_iff_eq] at h
  simp [encode, driWord, h.2, bitsOfVec_lsCode, opcodeRow, rowFits]

theorem droDpacc (c : Capture) : Statement (.droDpacc c) := by
  intro cfg sel h
  simp only [Instr.wellFormed, drWellFormed, Bool.and_eq_true, beq_iff_eq] at h
  simp [encode, droWord, h.2, bitsOfVec_lsCode, opcodeRow, rowFits]

theorem driApacc (c : Capture) : Statement (.driApacc c) := by
  intro cfg sel h
  simp only [Instr.wellFormed, drWellFormed, Bool.and_eq_true, beq_iff_eq] at h
  simp [encode, driWord, h.2, bitsOfVec_lsCode, opcodeRow, rowFits]

theorem droApacc (c : Capture) : Statement (.droApacc c) := by
  intro cfg sel h
  simp only [Instr.wellFormed, drWellFormed, Bool.and_eq_true, beq_iff_eq] at h
  simp [encode, droWord, h.2, bitsOfVec_lsCode, opcodeRow, rowFits]

theorem driUnhandled (k : Fin 6) (c : Capture) : Statement (.driUnhandled k c) := by
  intro cfg sel h
  simp only [Instr.wellFormed, drWellFormed, Bool.and_eq_true, beq_iff_eq] at h
  simp [encode, driWord, h.2, bitsOfVec_lsCode, opcodeRow, rowFits]

theorem droUnhandled (k : Fin 6) (c : Capture) : Statement (.droUnhandled k c) := by
  intro cfg sel h
  simp only [Instr.wellFormed, drWellFormed, Bool.and_eq_true, beq_iff_eq] at h
  simp [encode, droWord, h.2, bitsOfVec_lsCode, opcodeRow, rowFits]

theorem dropReserved (k : Fin 3) (p : RawCapture) : Statement (.dropReserved k p) := by
  intro cfg sel _
  have fits : ∀ k : Fin 3, rowFits [some true, none, none] (bitsOfVec (BitVec.ofNat 3 (5 + k.val))) = true := by decide
  simpa [encode, dispatchWord, Machine.cmdCode, opcodeRow] using fits k

end Sys2Proof.Laws.FitsRow
end

