-- ==== Sys2Proof/Tests/Slice0.lean ====
section
/-! SUPPORT. The model's own tests. Every expected result comes from the spec: the words from `opcode_table.json` and
`30_encoding.md` R42, the results from the vectors of `95_test_vectors.md`, named in each comment. -/

namespace Sys2Proof.Tests

open Sys2Proof.Machine

/-! Smoke tests of well-formedness: an ill-formed term for each check, refused. -/

/-- A bit string written with 0 and 1. -/
def str (s : String) : BitString := s.toList.map (fun ch => ch == '1')

/-- A classified capture at sample `t`, 10 samples per bit (R51). -/
def cap (bits : BitString) (t : Nat) : Capture :=
  ⟨bits, (List.range bits.length).map (fun i => ⟨t + 10 * i, t + 10 * (i + 1)⟩)⟩

/-- Catalog X of the vectors: the default with three example codes for the ARM registers. -/
def cfgX : Config :=
  { defaultConfig with irAbort := some 0b01000, irDpacc := some 0b01010, irApacc := some 0b01011 }

theorem smoke_no_bits : Instr.wellFormed defaultConfig (.known .idle) (.driIdle ⟨[], []⟩) = false := by decide
theorem smoke_range_missing :
    Instr.wellFormed defaultConfig (.known .idle) (.droIdle ⟨[true, false], [⟨0, 1⟩]⟩) = false := by decide
theorem smoke_reset_name : Instr.wellFormed defaultConfig (.known .idle) (.stOther "reset" ⟨0, 1⟩) = false := by decide
theorem smoke_wrong_symbol :
    Instr.wellFormed defaultConfig (.known .idle) (.irDmi (cap (str "10000") 0)) = false := by decide
theorem smoke_zero_pattern :
    Instr.wellFormed defaultConfig (.known .idle) (.irBypass (cap (str "00000") 0)) = false := by decide
theorem smoke_not_zero_pattern :
    Instr.wellFormed defaultConfig (.known .idle) (.irBypassZero (cap (str "11111") 0)) = false := by decide
theorem smoke_wrong_state :
    Instr.wellFormed defaultConfig (.known .dmi) (.driBypass (cap (str "1") 0)) = false := by decide
theorem smoke_wrong_spare_code :
    Instr.wellFormed defaultConfig (.spare 2) (.driUnhandled 3 (cap (str "1") 0)) = false := by decide

/-! The words of `opcode_table.json`, bit by bit, and what the decoder reads from them. -/

/-- The zero operand of a table word. -/
def zeroCap : Capture :=
  ⟨List.replicate 35 false, (List.range 35).map (fun i => ⟨i, i + 1⟩)⟩

/-- A 5-bit IR capture with unit ranges. -/
def irCap (s : String) : Capture :=
  ⟨str s, [⟨0, 1⟩, ⟨1, 2⟩, ⟨2, 3⟩, ⟨3, 4⟩, ⟨4, 5⟩]⟩

theorem test_word_stReset : decodeTableWord 4 0b0001 = some (.stReset ⟨0, 1⟩) := by decide
theorem test_word_stOther : decodeTableWord 4 0b0000 = some (.stOther "idle" ⟨0, 1⟩) := by decide
theorem test_word_irDtmcs : decodeTableWord 8 0b00110000 = some (.irDtmcs (irCap "10000")) := by decide
theorem test_word_irDmi : decodeTableWord 8 0b00110001 = some (.irDmi (irCap "10001")) := by decide
theorem test_word_irBypass : decodeTableWord 8 0b00111111 = some (.irBypass (irCap "11111")) := by decide
theorem test_word_irBypassZero : decodeTableWord 8 0b00100000 = some (.irBypassZero (irCap "00000")) := by decide
theorem test_word_irIdcode : decodeTableWord 8 0b00100001 = some (.irIdcode (irCap "00001")) := by decide
theorem test_word_irUnknown : decodeTableWord 8 0b00110010 = some (.irUnknown (irCap "10010")) := by decide
theorem test_word_irTdo : decodeTableWord 3 0b010 = some (.irTdo (rawOf zeroCap)) := by decide
theorem test_word_driIdle : decodeTableWord 7 0b0110000 = some (.driIdle zeroCap) := by decide
theorem test_word_droIdle : decodeTableWord 7 0b1000000 = some (.droIdle zeroCap) := by decide
theorem test_word_driReset : decodeTableWord 7 0b0110001 = some (.driReset zeroCap) := by decide
theorem test_word_droReset : decodeTableWord 7 0b1000001 = some (.droReset zeroCap) := by decide
theorem test_word_driBypass : decodeTableWord 7 0b0110010 = some (.driBypass zeroCap) := by decide
theorem test_word_droBypass : decodeTableWord 7 0b1000010 = some (.droBypass zeroCap) := by decide
theorem test_word_driIdcode : decodeTableWord 7 0b0110011 = some (.driIdcode zeroCap) := by decide
theorem test_word_droIdcode : decodeTableWord 7 0b1000011 = some (.droIdcode zeroCap) := by decide
theorem test_word_driAbort : decodeTableWord 7 0b0110100 = some (.driAbort zeroCap) := by decide
theorem test_word_droAbort : decodeTableWord 7 0b1000100 = some (.droAbort zeroCap) := by decide
theorem test_word_driUnknown : decodeTableWord 7 0b0110101 = some (.driUnknown zeroCap) := by decide
theorem test_word_droUnknown : decodeTableWord 7 0b1000101 = some (.droUnknown zeroCap) := by decide
theorem test_word_driDtmcs : decodeTableWord 7 0b0110110 = some (.driDtmcs zeroCap) := by decide
theorem test_word_droDtmcs : decodeTableWord 7 0b1000110 = some (.droDtmcs zeroCap) := by decide
theorem test_word_driDmi : decodeTableWord 7 0b0110111 = some (.driDmi zeroCap) := by decide
theorem test_word_droDmi : decodeTableWord 7 0b1000111 = some (.droDmi zeroCap) := by decide
theorem test_word_driDpacc : decodeTableWord 7 0b0111000 = some (.driDpacc zeroCap) := by decide
theorem test_word_droDpacc : decodeTableWord 7 0b1001000 = some (.droDpacc zeroCap) := by decide
theorem test_word_driApacc : decodeTableWord 7 0b0111001 = some (.driApacc zeroCap) := by decide
theorem test_word_droApacc : decodeTableWord 7 0b1001001 = some (.droApacc zeroCap) := by decide
theorem test_word_driUnhandled : decodeTableWord 7 0b0111100 = some (.driUnhandled 2 zeroCap) := by decide
theorem test_word_droUnhandled : decodeTableWord 7 0b1001111 = some (.droUnhandled 5 zeroCap) := by decide
theorem test_word_dropReserved : decodeTableWord 3 0b110 = some (.dropReserved 1 (rawOf zeroCap)) := by decide
theorem test_word_irAbort : decode cfgX (.known .idle) (.irTdi (unitRangeCapture (str "01000"))) =
    .ok (.irAbort (irCap "01000")) := by decide
theorem test_word_irDpacc : decode cfgX (.known .idle) (.irTdi (unitRangeCapture (str "01010"))) =
    .ok (.irDpacc (irCap "01010")) := by decide
theorem test_word_irApacc : decode cfgX (.known .idle) (.irTdi (unitRangeCapture (str "01011"))) =
    .ok (.irApacc (irCap "01011")) := by decide
/-- R4, R123: a label is a parameter, for one register apart from the others. -/
theorem test_label_is_configured :
    let t : Txt := { defaultTxt with labels := { defaultTxt.labels with dmi := { defaultLabels with op := "request" } } }
    render t (.field .dmi .inbound .op 2 1 0) = "request: 0x2" ∧
    render t (.field .dmi .inbound .data 2 33 2) = "data: 0x2" := by decide
/-- A width in whole bytes: the row of the same number with fewer bits, where no 8-bit row has it. -/
theorem test_word_in_bytes : decodeTableWord 8 0b1000011 = decodeTableWord 7 0b1000011 := by decide
/-- No row begins `011` and ends there. -/
theorem test_word_of_no_row : decodeTableWord 3 0b011 = none := by decide

/-! One step each, on a small state; the vectors of `95_test_vectors.md`. -/

/-- A state with everything announced and one record waiting. -/
def before (cfg : Config) (ls : LState) (sym : Symbol) (armed : Bool) (r : Record) : State :=
  { State.reset with cfg := cfg, ls := .known ls, irsym := sym, armed := armed, last := some (.known ls), input := [r] }

/-- The annotations of a step as the vectors write them: start, end, channel, text. -/
def shown : Host.Outcome State Fault Refusal → List (Nat × Nat × Nat × List String)
  | .next s => s.out.map (fun a => (a.ss, a.es, channelIndex a.ch, a.text))
  | _ => []

/-- `(ls, irsym, armed, last, fault_ir)` after a step. -/
def after : Host.Outcome State Fault Refusal → Option (Ls × Symbol × Bool × Option Ls × Bool)
  | .next s => some (s.ls, s.irsym, s.armed, s.last, s.faultIr)
  | _ => none

/-- T3, P1 E6. -/
theorem test_idcode : shown (step (before defaultConfig .idcode .idcode false
      (Trace.dro (Trace.spell 0x3ba00477 32) 200))) =
    [(200, 210, 1, ["reserved: 1"]), (280, 320, 1, ["continuation-code: 0x4"]), (210, 280, 1, ["identity-code: 0x3b"]),
     (210, 320, 1, ["manufacturer: 0x23b"]), (320, 480, 1, ["part: 0xba00"]), (480, 520, 1, ["version: 0x3"]),
     (200, 520, 2, ["IDCODE: (23b: 3/ba00)"]), (200, 520, 4, ["Idle"])] := by decide

/-- 2.4 line 1. -/
theorem test_reset_event : shown (step (before defaultConfig .idle .unknown false (Trace.st "reset" 0 10))) =
    [(0, 10, 4, ["Reset"])] := by decide

/-- 2.4 line 4. -/
theorem test_reset_event_cancels : after (step (before defaultConfig .idle .idcode true (Trace.st "reset" 0 10))) =
    some (.known .reset, .idcode, false, some (.known .reset), false) := by decide

/-- 2.3: names compare exactly. -/
theorem test_other_event : after (step (before defaultConfig .dmi .dmi false (Trace.st "Reset" 0 10))) =
    some (.known .dmi, .dmi, false, some (.known .dmi), false) := by decide

/-- 2.4 line 6. -/
theorem test_dtmcs_load : after (step (before defaultConfig .idle .unknown false (Trace.iri (str "10000") 0))) =
    some (.known .dtmcs, .dtmcs, false, some (.known .dtmcs), false) := by decide

/-- P2 E4. -/
theorem test_dmi_load : shown (step (before defaultConfig .dtmcs .dtmcs false (Trace.iri (str "10001") 500))) =
    [(500, 550, 4, ["Dmi"])] := by decide

/-- 2.4 line 9. -/
theorem test_bypass_load : after (step (before defaultConfig .dmi .dmi false (Trace.iri (str "11111") 0))) =
    some (.known .dmi, .bypass, true, some (.known .dmi), false) := by decide

/-- T1 line 2. -/
theorem test_bypass_load_zero : after (step (before defaultConfig .idle .unknown false (Trace.iri (str "00000") 0))) =
    some (.known .idle, .bypass, true, some (.known .idle), false) := by decide

/-- 2.4 line 17. -/
theorem test_idcode_load : after (step (before defaultConfig .reset .unknown false (Trace.iri (str "00001") 0))) =
    some (.known .reset, .idcode, true, some (.known .reset), false) := by decide

/-- T4, catalog X. -/
theorem test_abort_load : after (step (before cfgX .idle .unknown false (Trace.iri (str "01000") 0))) =
    some (.known .idle, .abort, true, some (.known .idle), false) := by decide

/-- T5, catalog X. -/
theorem test_dpacc_load : after (step (before cfgX .idle .unknown false (Trace.iri (str "01010") 0))) =
    some (.known .idle, .dpacc, true, some (.known .idle), false) := by decide

/-- P4 E4, catalog X. -/
theorem test_apacc_load : after (step (before cfgX .idle .dpacc false (Trace.iri (str "01011") 0))) =
    some (.known .idle, .apacc, true, some (.known .idle), false) := by decide

/-- P3 E10: 4 bits. -/
theorem test_unknown_load_length : after (step (before defaultConfig .idle .idcode false (Trace.iri (str "0001") 1300))) =
    some (.known .idle, .unknown, true, some (.known .idle), false) := by decide

/-- P1 E4. -/
theorem test_ir_tdo_dropped : after (step (before defaultConfig .reset .idcode true (Trace.iro (str "00001") 100))) =
    some (.known .reset, .idcode, true, some (.known .reset), false) := by decide

/-- 2.3 last line. -/
theorem test_reserved_dropped : after (step (before defaultConfig .dmi .dmi false (.reserved 2 zeroOperand))) =
    some (.known .dmi, .dmi, false, some (.known .dmi), false) := by decide

/-- P1 E7. -/
theorem test_idle_in : after (step (before defaultConfig .idle .idcode false (Trace.dri (Trace.spell 0 32) 600))) =
    some (.known .idle, .idcode, false, some (.known .idle), false) := by decide

/-- P1 E8. -/
theorem test_idle_out : shown (step (before defaultConfig .idle .idcode false (Trace.dro (Trace.spell 0x3ba00477 32) 600))) =
    [] := by decide

/-- T2, third record. -/
theorem test_reset_in : shown (step (before defaultConfig .reset .unknown false (Trace.dri (str "1") 100))) =
    [(100, 110, 4, ["Idle"])] := by decide

/-- P4 E7. -/
theorem test_reset_out : shown (step (before defaultConfig .reset .apacc false (Trace.dro (Trace.spell 1 35) 1100))) =
    [(1100, 1450, 4, ["Idle"])] := by decide

/-- P2 E10: owed transition, item, completion. -/
theorem test_bypass_in : shown (step (before defaultConfig .dmi .bypass true (Trace.dri (str "1") 1700))) =
    [(1700, 1710, 4, ["Bypass"]), (1700, 1710, 0, ["BYPASS: 1"]), (1700, 1710, 4, ["Idle"])] := by decide

/-- T12: wrong direction. -/
theorem test_bypass_out : shown (step (before defaultConfig .idle .bypass true (Trace.dro (str "0") 100))) =
    [(100, 110, 4, ["Bypass"])] := by decide

/-- P1 E5. -/
theorem test_idcode_in : shown (step (before defaultConfig .reset .idcode true (Trace.dri (Trace.spell 0 32) 200))) =
    [(200, 520, 4, ["Idcode"])] := by decide

/-- T3c. -/
theorem test_idcode_short : shown (step (before defaultConfig .dmi .idcode true (Trace.dro (str "0011101110100000000001000111011") 900))) =
    [(900, 1210, 4, ["Idcode"]), (900, 1210, 5, ["UNKNOWN (Idcode, OutOfRange): 0011101110100000000001000111011"]), (900, 1210, 4, ["Idle"])] := by decide

/-- P4 E9. -/
theorem test_abort_in : shown (step (before cfgX .idle .abort true (Trace.dri (Trace.spell 0x80000001 32) 1600))) =
    [(1600, 1920, 4, ["Abort"]), (1600, 1610, 1, ["DAPABORT: 1"]), (1610, 1920, 1, ["reserved: 0x40000000"]), (1600, 1920, 2, ["DAPABORT = 1: DAP abort generated"]), (1600, 1920, 3, ["WARNING: ABORT bits 31:1 reserved, must be zero"]), (1600, 1920, 4, ["Idle"])] := by decide

/-- T4 line 5: 33 bits, bit 32 is outside the layout. -/
theorem test_abort_no_warning : shown (step (before cfgX .abort .abort false (Trace.dri (true :: (Trace.spell 0 32)) 100))) =
    [(100, 110, 1, ["DAPABORT: 0"]), (110, 420, 1, ["reserved: 0x0"]), (100, 430, 2, ["DAPABORT = 0: No DAP abort generated"]), (100, 430, 4, ["Idle"])] := by decide

/-- 2.5: ignored. -/
theorem test_abort_out : shown (step (before cfgX .abort .abort false (Trace.dro (Trace.spell 1 32) 0))) =
    [] := by decide

/-- P3 E2. -/
theorem test_unknown_in : shown (step (before defaultConfig .idle .unknown true (Trace.dri (str "1011") 100))) =
    [(100, 140, 4, ["Unknown"]), (100, 140, 2, ["Unknown instruction: 1011"]), (100, 140, 4, ["Idle"])] := by decide

/-- 2.5: ignored. -/
theorem test_unknown_out : after (step (before defaultConfig .unknown .unknown false (Trace.dro (str "1011") 100))) =
    some (.known .unknown, .unknown, false, some (.known .unknown), false) := by decide

/-- T5. -/
theorem test_dpacc_in : shown (step (before cfgX .idle .dpacc true (Trace.dri (Trace.spell 0x091a2b3c5 35) 100))) =
    [(100, 450, 4, ["Dpacc"]), (130, 450, 1, ["data: 0x12345678"]), (110, 130, 1, ["address: 0x2"]), (100, 110, 1, ["read/write: 1"]), (100, 450, 2, ["New transaction: DATA: 0x12345678, A: 0x2, RnW: Read request"])] := by decide

/-- 2.5, L = 3. -/
theorem test_dpacc_in_three_bits : shown (step (before cfgX .dpacc .dpacc false (Trace.dri (str "101") 100))) =
    [(100, 130, 5, ["UNKNOWN (Dpacc, MalformedField): 101"])] := by decide

/-- T5. -/
theorem test_dpacc_out : shown (step (before cfgX .dpacc .dpacc false (Trace.dro (Trace.spell 0x657f7806a 35) 100))) =
    [(130, 450, 1, ["data: 0xcafef00d"]), (100, 130, 1, ["ack: 0x2"]), (100, 450, 2, ["Previous transaction result: DATA: 0xcafef00d, ACK: OK/FAULT"]), (100, 450, 4, ["Idle"])] := by decide

/-- 2.5, L = 2. -/
theorem test_dpacc_out_two_bits : shown (step (before cfgX .dpacc .dpacc false (Trace.dro (str "10") 100))) =
    [(100, 120, 5, ["UNKNOWN (Dpacc, OutOfRange): 10"]), (100, 120, 4, ["Idle"])] := by decide

/-- P4 E5. -/
theorem test_apacc_in : shown (step (before cfgX .idle .apacc true (Trace.dri (Trace.spell 0x7fffffff8 35) 600))) =
    [(600, 950, 4, ["Apacc"]), (630, 950, 1, ["data: 0xffffffff"]), (610, 630, 1, ["address: 0x0"]), (600, 610, 1, ["read/write: 0"]), (600, 950, 2, ["New transaction: DATA: 0xffffffff, A: 0x0, RnW: Write request"])] := by decide

/-- T10: ack 001, for APACC. -/
theorem test_apacc_out_ack : shown (step (before cfgX .apacc .apacc false (Trace.dro (str "101001") 100))) =
    [(130, 160, 1, ["data: 0x5"]), (100, 130, 1, ["ack: 0x1"]), (100, 160, 2, ["Previous transaction result: DATA: 0x5, ACK: WAIT"]), (100, 160, 4, ["Idle"])] := by decide

/-- P2 E2. -/
theorem test_dtmcs_in : shown (step (before defaultConfig .dtmcs .dtmcs false (Trace.dri (Trace.spell 0x00005071 32) 100))) =
    [(100, 140, 1, ["version: 0x1"]), (140, 200, 1, ["abits: 0x7"]), (200, 220, 1, ["dmistat: 0x0"]), (220, 250, 1, ["idle: 0x5"]), (100, 420, 2, ["in dtmcs: version: 0x1 abits: 0x7 dmistat: 0x0 idle: 0x5"])] := by decide

/-- 2.5: 17 bits. -/
theorem test_dtmcs_in_short : shown (step (before defaultConfig .dtmcs .dtmcs false (Trace.dri (str "11111111111111111") 100))) =
    [(100, 270, 5, ["UNKNOWN (Dtmcs, OutOfRange): 11111111111111111"])] := by decide

/-- P2 E3. -/
theorem test_dtmcs_out : shown (step (before defaultConfig .dtmcs .dtmcs false (Trace.dro (Trace.spell 0x00010000 32) 100))) =
    [(260, 270, 1, ["dmireset: 1"]), (270, 280, 1, ["dmihardreset: 0"]), (100, 420, 2, ["out dtmcs: dmireset: 1 dmihardreset: 0"])] := by decide

/-- P2 E5. -/
theorem test_dmi_in : shown (step (before defaultConfig .dmi .dmi false (Trace.dri (Trace.spell 0x4000000006 41) 600))) =
    [(940, 1010, 1, ["address: 0x10"]), (620, 940, 1, ["data: 0x1"]), (600, 620, 1, ["op: 0x2"]), (600, 1010, 2, ["in instr: 0x2 addr: 0x10 data: 0x1"])] := by decide

/-- The default with one lead bit stripped from dmi captures. -/
def cfgStrip : Config :=
  { defaultConfig with leadStrip := { defaultLeadStrip with dmi := 1 } }

/-- 2.5, LEAD_STRIP(Dmi) = 1, 42 bits. -/
theorem test_dmi_in_lead_strip : shown (step (before cfgStrip .dmi .dmi false (Trace.dri (true :: (Trace.spell 0x4000000006 41)) 100))) =
    [(440, 510, 1, ["address: 0x10"]), (120, 440, 1, ["data: 0x1"]), (100, 120, 1, ["op: 0x2"]), (100, 520, 2, ["in instr: 0x2 addr: 0x10 data: 0x1"])] := by decide

/-- P2 E8. -/
theorem test_dmi_out : shown (step (before defaultConfig .dmi .dmi false (Trace.dro (Trace.spell 0x4000000004 41) 1100))) =
    [(1440, 1510, 1, ["address: 0x10"]), (1120, 1440, 1, ["data: 0x1"]), (1100, 1120, 1, ["op: 0x0"]), (1100, 1510, 2, ["out instr: 0x0 addr: 0x10 data: 0x1"])] := by decide

/-- P3 E7. -/
theorem test_dmi_out_raw : shown (step (before defaultConfig .dmi .dmi false (Trace.dro (str "1010101010") 600))) =
    [(600, 700, 2, ["out raw: 0x2aa"])] := by decide

/-- 2.4 last line: `ls` code 12. -/
theorem test_unhandled_in : shown (step { before defaultConfig .idle .unknown false (Trace.dri (str "1") 0) with
      ls := .spare 2, last := some (.spare 2) }) = [(0, 10, 5, ["Unhandled state: 12"])] := by decide

/-- R95: no state change; code 15. -/
theorem test_unhandled_out : after (step { before defaultConfig .idle .unknown false (Trace.dro (str "1") 0) with
      ls := .spare 5, last := some (.spare 5) }) = some (.spare 5, .unknown, false, some (.spare 5), false) := by decide

/-- P5 E1: an invalid range drops both state annotations, the state still changes. -/
theorem test_invalid_range : after (step { State.reset with input := [Trace.st "reset" 5 5] }) =
    some (.known .reset, .unknown, false, none, true) := by decide

/-- P5 E2: the state is announced by the next accepted record. -/
theorem test_late_announcement : shown (step { State.reset with
      ls := .known .reset, faultIr := true, input := [Trace.st "idle" 10 20] }) = [(10, 20, 4, ["Reset"])] := by decide

/-- 2.3: a range is missing; the record is dropped and taken. -/
theorem test_malformed_record : step { State.reset with input := [.drTdi ⟨['1', '0', '1'], [⟨0, 1⟩, ⟨1, 2⟩]⟩] } =
    .next State.reset := by rfl

/-- 2.3: a character that is no bit. -/
theorem test_not_a_bit : classify (.drTdi ⟨['1', 'x', '1'], [⟨0, 1⟩, ⟨1, 2⟩, ⟨2, 3⟩]⟩) = none := by decide

/-- 2.3 line 1: the one reversal, and the event range. -/
theorem test_reversal : classify (.drTdi ⟨['1', '1', '0'], [⟨20, 30⟩, ⟨10, 20⟩, ⟨0, 10⟩]⟩) =
    some (.drShiftIn ⟨[true, true, false], [⟨0, 10⟩, ⟨10, 20⟩, ⟨20, 30⟩]⟩) := by decide

/-- 2.2: the slices. -/
theorem test_slices : slice (str "00111011") 2 6 = .ok (str "1110") ∧ slice (str "1010") 0 5 = .error .outOfRange ∧
    slice (str "1010") (-5) 2 = .error .outOfRange ∧ slice (str "1010") 3 1 = .error .malformedField ∧
    slice (str "1010") (-3) (-1) = .ok (str "01") ∧ slice (str "10") (-1) 1 = .ok [] := by decide

/-- 2.2: the renderings. -/
theorem test_renderings : hex 0 = "0x0" ∧ hex 571 = "0x23b" ∧ hex 3735928559 = "0xdeadbeef" ∧ hexbare 47616 = "ba00" ∧
    bitchar 1 = "1" := by decide

/-- 2.1: the DMI catalog. -/
theorem test_dmi_catalog : dmiLookup defaultConfig 0x10 = some ("dmcontrol", "dmcontrol") ∧
    dmiLookup defaultConfig 0x7f = none ∧ dmiLookup defaultConfig 0x0f = some ("data11", "data11") ∧
    dmiLookup defaultConfig 0x1c = some ("confstrptr3", "confstrptr3") := by decide

/-- The pseudo-instruction LOAD (R51). -/
theorem test_load : Trace.load defaultConfig .dmi 0 = some (Trace.iri (str "10001") 0) ∧
    Trace.load defaultConfig .dpacc 0 = none ∧ Trace.load cfgX .dpacc 0 = some (Trace.iri (str "01010") 0) := by decide

/-- R21: the codes. -/
theorem test_codes : lsCode (.known .apacc) = 9 ∧ symbolCode .apacc = 7 ∧ lastCode (some (.known .dmi)) = 0b10111 ∧
    lastCode none = 0 ∧ lsOfCode 12 = .spare 2 := by decide

/-- The very next step runs the instruction of a table word: DRI.UNKNOWN completes in Idle. -/
theorem test_with_fetch_word : after (step (State.reset.withFetchWord 7 0b0110101)) =
    some (.known .idle, .unknown, false, some (.known .idle), false) := by decide

/-! Witnesses: for every statement with hypotheses, concrete inputs that meet them together, one for each clause at a
boundary of its range. -/

/-- A state that dispatches in `x` with nothing owed. -/
def inState (x : LState) : State :=
  before defaultConfig x .unknown false (Trace.dri (str "1") 0)

/-- A state in which the transition to the state of `sym` is owed. -/
def owing (sym : Symbol) : State :=
  before defaultConfig .idle sym true (Trace.dri (str "1") 0)

/-- `n` ones. -/
def ones (n : Nat) : BitString := List.replicate n true

theorem witness_IrLookupComparesFiveBitPatterns :
    (ones 4).length ≠ 5 ∧ (ones 6).length ≠ 5 ∧ (ones 5).length = 5 ∧ ones 5 = bitsOfVec (0b11111 : Pattern) ∧
    str "00000" = bitsOfVec (0b00000 : Pattern) := by decide
/-- Addresses outside the default map, beside each of its ends and gaps (R56). -/
theorem witness_DefaultTablesRouteTheirCodes :
    [0x00, 0x03, 0x1e, 0x1f, 0x31, 0x33, 0x36, 0x41].all (fun a => defaultDmiCat.all (fun e => e.addr != a)) = true := by
  decide
theorem witness_DmiLookupIsByNumericValue :
    (defaultConfig.dmiCat = [] ++ dmiEntry 0x04 "data0" :: defaultConfig.dmiCat.tail ∧
      (∀ f ∈ ([] : List DmiEntry), f.addr ≠ 0x04) ∧ (dmiEntry 0x04 "data0").addr = 0x04) ∧
    (defaultConfig.dmiCat = defaultConfig.dmiCat.dropLast ++ dmiEntry 0x40 "haltsum0" :: [] ∧
      (∀ f ∈ defaultConfig.dmiCat.dropLast, f.addr ≠ 0x40) ∧ (dmiEntry 0x40 "haltsum0").addr = 0x40) := by decide
/-- Each range clause on a 4-bit string: below 0, above 4, reversed, and the two ends of the allowed range. -/
theorem witness_SliceTakesThePositionsOrFails :
    ((-1 : Int) = (if (0 : Int) ≤ -5 then -5 else (ones 4).length + (-5 : Int)) ∧ (-1 : Int) < 0) ∧
    ((5 : Int) = (if (0 : Int) ≤ 5 then 5 else (ones 4).length + (5 : Int)) ∧ ((ones 4).length : Int) < 5) ∧
    ((0 : Int) = (if (0 : Int) ≤ -4 then -4 else (ones 4).length + (-4 : Int)) ∧ (0 : Int) ≤ 0) ∧
    ((4 : Int) = (if (0 : Int) ≤ 4 then 4 else (ones 4).length + (4 : Int)) ∧ (4 : Int) ≤ (ones 4).length) ∧
    (3 : Int) < 4 ∧ (4 : Int) ≤ 4 := by decide
theorem witness_ToUnsignedIntIsBigEndian : str "0" ≠ [] := by decide
theorem witness_IsAllZeroTestsEveryBit : str "0" ≠ [] ∧ 0 < (str "0").length := by decide
theorem witness_FieldReadsItsSlice :
    (0 ≤ 0 ∧ 0 < (ones 1).length) ∧ (0 ≤ 31 ∧ 31 < (ones 32).length) := by decide
theorem witness_SlicingIsLosslessAndFieldsConcatenate :
    ((ones 2).length = (str "10").length ∧ 0 ≤ 1 ∧ 1 ≤ (ones 2).length ∧
      ∀ k, k < 1 → (ones 2)[k]? = (str "10")[k]?) ∧
    (0 < 1 ∧ 1 ≤ 1 ∧ 1 < (ones 2).length) := by decide
theorem witness_LaterBitsDoNotChangeAField : 0 ≤ 31 ∧ 31 < (ones 32).length := by decide
theorem witness_IdcodeFieldsTileTheWord : 32 ≤ (ones 32).length ∧ 32 ≤ (ones 33).length := by decide
theorem witness_ClassifierReversesTheRangesOnce :
    rawOk ⟨['1'], [⟨0, 1⟩]⟩ = true ∧ rawOk ⟨['1', '0'], [⟨10, 20⟩, ⟨0, 10⟩]⟩ = true := by decide
/-- A body with a field annotation, for the clause on the ranges of the fields. -/
theorem witness_ClassifierReversesTheRangesOnce_fields :
    rawOk (Trace.scanAt (ones 4) 0 10) = true ∧
    ∃ es, tryDecode defaultConfig .dpacc .outbound (cap (ones 4) 0) = .ok es ∧
      ∃ e ∈ es, e.payload = .field .dpacc .outbound .data 1 3 3 :=
  ⟨by decide, _, rfl, ⟨⟨30, 40⟩, .field, .field .dpacc .outbound .data 1 3 3⟩, by decide, rfl⟩
theorem witness_RecordsWithoutAnEventAreDropped :
    (∃ s : State, s.input = .drTdi ⟨[], []⟩ :: [] ∧ classify (.drTdi ⟨[], []⟩) = none) ∧
    (∃ s : State, s.input = Trace.iro (ones 5) 0 :: [] ∧ classify (Trace.iro (ones 5) 0) = none) :=
  ⟨⟨{ State.reset with input := [.drTdi ⟨[], []⟩] }, rfl, by decide⟩,
   ⟨{ State.reset with input := [Trace.iro (ones 5) 0] }, rfl, by decide⟩⟩
theorem witness_RegularScanRanges : ones 1 ≠ [] ∧ 0 ≤ 0 ∧ 0 < (ones 1).length := by decide

/-- One well-formed instruction of each ST and IR row. -/
theorem witness_DecodeOfEncode_st_ir :
    [Instr.stReset ⟨0, 1⟩, .stOther "" ⟨0, 1⟩, .irDtmcs (irCap "10000"), .irDmi (irCap "10001"),
     .irBypass (irCap "11111"), .irBypassZero (irCap "00000"), .irIdcode (irCap "00001"), .irAbort (irCap "01000"),
     .irDpacc (irCap "01010"), .irApacc (irCap "01011"), .irUnknown (irCap "10010"), .irUnknown (cap (ones 1) 0),
     .irTdo ⟨[], []⟩, .dropReserved 2 ⟨[], []⟩].all (fun i => i.wellFormed cfgX (.known .idle)) = true := by decide
/-- One well-formed instruction of each DR row, with its dispatch state. -/
theorem witness_DecodeOfEncode_dr :
    [(LState.idle, Instr.driIdle zeroCap), (.idle, .droIdle zeroCap), (.reset, .driReset zeroCap),
     (.reset, .droReset zeroCap), (.bypass, .driBypass zeroCap), (.bypass, .droBypass zeroCap),
     (.idcode, .driIdcode zeroCap), (.idcode, .droIdcode zeroCap), (.abort, .driAbort zeroCap),
     (.abort, .droAbort zeroCap), (.unknown, .driUnknown zeroCap), (.unknown, .droUnknown zeroCap),
     (.dtmcs, .driDtmcs zeroCap), (.dtmcs, .droDtmcs zeroCap), (.dmi, .driDmi zeroCap), (.dmi, .droDmi zeroCap),
     (.dpacc, .driDpacc zeroCap), (.dpacc, .droDpacc zeroCap), (.apacc, .driApacc zeroCap),
     (.apacc, .droApacc zeroCap)].all (fun p => p.2.wellFormed defaultConfig (.known p.1)) = true ∧
    (Instr.driUnhandled 0 zeroCap).wellFormed defaultConfig (.spare 0) = true ∧
    (Instr.droUnhandled 5 zeroCap).wellFormed defaultConfig (.spare 5) = true := by decide
theorem witness_EncodeOfDecodeIsTheRecord :
    decode defaultConfig (.known .idle) (Trace.st "reset" 0 1) = .ok (.stReset ⟨0, 1⟩) ∧
    decode defaultConfig (.spare 0) (.drTdi ⟨['1'], [⟨0, 10⟩]⟩) = .ok (.driUnhandled 0 (cap (ones 1) 0)) := by decide
theorem witness_LsCodesRoundTrip : lastCode (some (.spare 5)) = lastCode (some (.spare 5)) ∧
    lastCode none = lastCode none := by decide
theorem witness_EmitAppendsOrRaisesTheFlag :
    (⟨0, 1⟩ : SampleRange).ss < (⟨0, 1⟩ : SampleRange).es ∧ (⟨5, 5⟩ : SampleRange).es ≤ (⟨5, 5⟩ : SampleRange).ss := by
  decide
theorem witness_EmitStateAnnouncesOnce :
    (inState .dmi).last = some (inState .dmi).ls ∧
    (State.reset.last ≠ some State.reset.ls ∧ (0 : Nat) < 1 ∧ (5 : Nat) ≤ 5) := by decide

/-- The dispatch states, by `ls` and by an owed transition. -/
theorem witness_dispatch_states :
    (∀ x, dispatchState (inState x) = .known x) ∧ (∀ sym, dispatchState (owing sym) = .known (stateOf sym)) ∧
    (∀ k, dispatchState { inState .idle with ls := .spare k } = .spare k) :=
  ⟨fun _ => rfl, fun _ => rfl, fun _ => rfl⟩
theorem witness_IdcodeDecoderFollowsItsRule :
    (ones 31).length < 32 ∧ (32 ≤ (ones 32).length ∧ 2 ^ 32 - 1 = val (ones 32)) ∧
    dispatchState (owing .idcode) = .known .idcode := by decide
theorem witness_AbortDecoderWarnsOnReservedBits :
    (ones 31).length < 32 ∧ (32 ≤ (ones 32).length ∧ 2 ^ 32 - 1 = val (ones 32)) ∧
    slice (ones 32) (((ones 32).length : Int) - 32) (((ones 32).length : Int) - 1) = .ok (ones 31) ∧
    (∃ es, decoderBody .abort .inbound ⟨ones 32, []⟩ ⟨0, 1⟩ = .ok es ∧ ∃ e ∈ es, e.ch = .warning) ∧
    dispatchState (owing .abort) = .known .abort := by
  refine ⟨by decide, by decide, by decide, ⟨_, rfl, ⟨⟨0, 1⟩, .warning, .warnAbortReserved (2 ^ 31 - 1)⟩, by decide, rfl⟩, rfl⟩
theorem witness_UnknownDecoderShowsTheBits : dispatchState (owing .unknown) = .known .unknown := by decide
theorem witness_BypassDecoderUsesTheItemChannel : dispatchState (owing .bypass) = .known .bypass := by decide
theorem witness_AccessRequestDecoder :
    ((LState.dpacc = .dpacc ∧ Symbol.dpacc = .dpacc) ∧ (LState.apacc = .apacc ∧ Symbol.apacc = .apacc)) ∧
    (2 = (ones 2).length ∧ 2 < 3) ∧ 3 = (ones 3).length ∧ (4 = (ones 4).length ∧ 3 < 4 ∧ 15 = val (ones 4)) ∧
    dispatchState (inState .dpacc) = .known .dpacc ∧ dispatchState (inState .apacc) = .known .apacc := by decide
theorem witness_AccessResultDecoder :
    (2 = (ones 2).length ∧ 2 < 3) ∧ 3 = (ones 3).length ∧ (4 = (ones 4).length ∧ 3 < 4 ∧ 15 = val (ones 4)) ∧
    (0 ≠ 1 ∧ 0 ≠ 2) ∧ (3 ≠ 1 ∧ 3 ≠ 2) ∧
    dispatchState (owing .dpacc) = .known .dpacc ∧ dispatchState (owing .apacc) = .known .apacc := by decide
theorem witness_DtmcsDecoders :
    (ones 17).length < 18 ∧ 18 ≤ (ones 18).length ∧ 2 ^ 18 - 1 = val (ones 18) ∧
    dispatchState (inState .dtmcs) = .known .dtmcs := by decide
theorem witness_DmiDecoderSplitsAboveThirtyFourBits :
    (34 < 35 ∧ 35 = (ones 35).length ∧ 2 ^ 35 - 1 = val (ones 35)) ∧ (1 ≤ 1 ∧ 1 ≤ 34 ∧ 1 = (ones 1).length) ∧
    (1 ≤ 34 ∧ 34 ≤ 34 ∧ 34 = (ones 34).length) ∧ 0 = (ones 0).length ∧
    dispatchState (inState .dmi) = .known .dmi := by decide
theorem witness_LeadBitsAreStrippedBeforeDecoding :
    1 = cfgStrip.leadStrip.get .dmi ∧ (zeroCap.bits.drop 35).length < 1 ∧ 1 ≤ (cap (ones 1) 0).bits.length := by decide
/-- Each row of the two error tables, at the last length that errs and with the strip count that goes with it. -/
theorem witness_OutOfRangeExactlyBelowTheMinimumLengths :
    (expects .dmi .inbound = true ∧ 1 = cfgStrip.leadStrip.get .dmi ∧ 0 < 1) ∧
    (expects .idcode .outbound = true ∧ 0 = defaultConfig.leadStrip.get .idcode ∧ (ones 31).length - 0 < 32) ∧
    (expects .abort .inbound = true ∧ 0 = defaultConfig.leadStrip.get .abort ∧ (ones 31).length - 0 < 32) ∧
    (expects .dpacc .inbound = true ∧ expects .dpacc .outbound = true ∧ (ones 2).length - 0 < 3) ∧
    (expects .apacc .inbound = true ∧ expects .apacc .outbound = true ∧ (ones 2).length - 0 < 3) ∧
    (expects .dtmcs .inbound = true ∧ expects .dtmcs .outbound = true ∧ (ones 17).length - 0 < 18) := by decide
theorem witness_MalformedFieldExactlyWhereAFieldIsEmpty :
    (expects .dpacc .inbound = true ∧ 0 = defaultConfig.leadStrip.get .dpacc ∧ (ones 3).length - 0 = 3) ∧
    (expects .apacc .outbound = true ∧ 0 = defaultConfig.leadStrip.get .apacc ∧ (ones 3).length - 0 = 3) ∧
    (expects .dmi .inbound = true ∧ 1 = cfgStrip.leadStrip.get .dmi ∧ (ones 1).length - 1 = 0) := by decide

/-- For the frame and for the step: an instruction that answers a next state, and a record that decodes to it. -/
theorem witness_StepRunsTheDecodedInstruction :
    ((inState .dmi).input = Trace.dri (str "1") 0 :: [] ∧
      decode (inState .dmi).cfg (dispatchState (inState .dmi)) (Trace.dri (str "1") 0) =
        .ok (.driDmi (cap (str "1") 0))) ∧
    (decode defaultConfig (.known .idle) (.drTdo ⟨[], []⟩) = .error .emptyCapture ∧
      decode defaultConfig (.known .idle) (.drTdo ⟨['1'], []⟩) = .error .lengthMismatch ∧
      decode defaultConfig (.known .idle) (.irTdi ⟨['2'], [⟨0, 1⟩]⟩) = .error .notABit) ∧
    State.reset.input = [] := by decide
theorem witness_EveryInstructionKeepsItsFrame :
    ∃ t, exec (.driBypass (cap (str "1") 0)) (owing .bypass) = .next t := ⟨_, rfl⟩
/-- An instruction that appends an annotation. -/
theorem witness_ChannelsAreFixed :
    ∃ t a, exec (.driBypass (cap (str "1") 0)) (owing .bypass) = .next t ∧ a ∈ t.out ∧ a.payload = .item [true] :=
  ⟨_, ⟨0, 10, .item, ["BYPASS: 1"], .item [true]⟩, rfl, by decide, rfl⟩
/-- Two states that differ in the flag, the sentinel and the trace alone, and both step. -/
theorem witness_NoCauseHaltsTheCore :
    ∃ t t', step (inState .dmi) = .next t ∧
      step { inState .dmi with faultIr := true, last := none, out := [⟨0, 1, .state, ["Idle"], .state (.known .idle)⟩] } =
        .next t' := ⟨_, _, rfl, rfl⟩
/-- A DR record of each direction whose decode degrades, and the step on it. -/
theorem witness_NoCauseHaltsTheCore_degraded :
    classify (Trace.dri (ones 31) 0) = some (.drShiftIn (cap (ones 31) 0)) ∧
    classify (Trace.dro (ones 31) 0) = some (.drShiftOut (cap (ones 31) 0)) ∧
    tryDecode defaultConfig .abort .inbound (cap (ones 31) 0) = .error .outOfRange ∧
    tryDecode defaultConfig .idcode .outbound (cap (ones 31) 0) = .error .outOfRange ∧
    after (step (before defaultConfig .abort .abort false (Trace.dri (ones 31) 0))) =
      some (.known .idle, .abort, false, some (.known .idle), false) ∧
    after (step (before defaultConfig .idle .idcode true (Trace.dro (ones 31) 0))) =
      some (.known .idle, .idcode, false, some (.known .idle), false) :=
  ⟨by decide, by decide, rfl, rfl, by decide, by decide⟩
/-- One accepted record of each kind. -/
theorem witness_TransitionTableHolds :
    classify (Trace.st "reset" 0 1) = some (.stateChange "reset" ⟨0, 1⟩) ∧
    classify (Trace.iri (ones 5) 0) = some (.irLoad (cap (ones 5) 0)) ∧
    classify (Trace.dri (ones 1) 0) = some (.drShiftIn (cap (ones 1) 0)) ∧
    classify (Trace.dro (ones 1) 0) = some (.drShiftOut (cap (ones 1) 0)) ∧
    (inState .idle).input = Trace.dri (ones 1) 0 :: [] := by decide
theorem witness_IrLoadSelectsTheNextDispatch :
    (before defaultConfig .dmi .dmi false (Trace.iri (ones 5) 0)).input = Trace.iri (ones 5) 0 :: [] ∧
    classify (Trace.iri (ones 5) 0) = some (.irLoad (cap (ones 5) 0)) := by decide
theorem witness_ACompletedSelectionIsSpent :
    (inState .idle).ls = .known .idle ∧ (inState .idle).armed = false ∧ (inState .idle).last = some (.known .idle) ∧
    (inState .idle).input = Trace.dri (ones 1) 0 :: [] ∧
    classify (Trace.dri (ones 1) 0) = some (.drShiftIn (cap (ones 1) 0)) ∧
    classify (Trace.dro (ones 1) 0) = some (.drShiftOut (cap (ones 1) 0)) := by decide
/-- A step with an owed transition and a completion, no range of which is invalid. -/
theorem witness_StateAnnotationsFollowLs :
    (owing .bypass).last = some (owing .bypass).ls ∧
    classify (Trace.dri (str "1") 0) = some (.drShiftIn (cap (str "1") 0)) ∧
    after (step (owing .bypass)) = some (.known .idle, .bypass, false, some (.known .idle), false) := by decide

/-- A state with something announced, a transition owed and a record waiting. -/
def announced : State :=
  { owing .idcode with out := [⟨0, 1, .state, ["Idle"], .state (.known .idle)⟩] }
theorem witness_announced_invariant : MachineInv announced where
  lsKnown := ⟨.idle, rfl⟩
  armedOneShot := fun _ => rfl
  outOk := by
    intro a h
    obtain rfl : a = ⟨0, 1, .state, ["Idle"], .state (.known .idle)⟩ := by simpa [announced] using h
    exact ⟨by decide, rfl, rfl⟩
  lastIsNewest := rfl
  notesDiffer := rfl
  announced := fun _ => .inl rfl
/-- With the invariant above: a step answers, the flag is clear, the waiting record's ranges are valid. -/
theorem witness_invariant_and_runs :
    announced.faultIr = false ∧ (∀ r ∈ announced.input, recordRangesOk r = true) ∧
    announced.input = Trace.dri (str "1") 0 :: [] ∧
    after (step announced) = some (.known .idcode, .idcode, false, some (.known .idcode), false) := by decide
theorem witness_ValidRangesNeverRaiseTheFlag :
    recordRangesOk (Trace.st "reset" 0 1) = true ∧ recordRangesOk (Trace.iri (ones 5) 0) = true ∧
    recordRangesOk (Trace.dro (ones 2) 7) = true := by decide
theorem witness_IrsymIsReadOnlyWhileArmed :
    (inState .bypass).armed = false ∧
    after (step (inState .bypass)) = some (.known .idle, .unknown, false, some (.known .idle), false) := by decide
theorem witness_DefaultCatalogNeverSelectsTheArmRegisters : riscvOnly (owing .idcode) :=
  ⟨rfl, by decide, by decide, by decide, by decide, by decide, by decide⟩

end Sys2Proof.Tests
end

section
/-! PROOFS. What a step does with the oldest record (`00_scope.md` R3), and the texts of the payloads (`45_emitter.md` R123
to R125). -/

namespace Sys2Proof.Machine

/-! ### One step -/

/-- With a record waiting, taking it leaves the ones behind it. -/
theorem takeRecord_of_cons {s : State} {r : Record} {rest : List Record} (hin : s.input = r :: rest) :
    takeRecord s = { s with input := rest } := by
  simp [takeRecord, hin]

theorem step_of_nil {s : State} (hin : s.input = []) : step s = .next s := by
  simp [step, hin]

theorem step_of_decode_ok {s : State} {r : Record} {rest : List Record} {i : Instr} (hin : s.input = r :: rest)
    (hdec : decode s.cfg (dispatchState s) r = .ok i) : step s = exec i { s with input := rest } := by
  simp [step, hin, hdec, takeRecord_of_cons hin]

theorem step_of_decode_error {s : State} {r : Record} {rest : List Record} {e : DecodeError} (hin : s.input = r :: rest)
    (hdec : decode s.cfg (dispatchState s) r = .error e) : step s = .next { s with input := rest } := by
  simp [step, hin, hdec, takeRecord_of_cons hin]

/-- Settles O47: the three cases of a step, by the queue and by what the decoder answers. -/
theorem stepRunsTheDecodedInstruction : Obligations.StepRunsTheDecodedInstruction :=
  ⟨fun _ _ _ _ => step_of_decode_ok, fun _ _ _ _ => step_of_decode_error, fun _ => step_of_nil⟩

/-! ### The text of each payload under the default `TXT` -/

/-- R4, R123: a field's text takes its label and its separator from `TXT`. -/
theorem render_field (t : Txt) (reg : Symbol) (dir : Dir) (label : FieldLabel) (value hi lo : Nat) :
    render t (.field reg dir label value hi lo) = labelText t reg label ++ t.fieldSep ++ fieldValueText reg label value :=
  rfl

/-- A row of the label table of R123: the label's text, and whether the value is written as a bit (R68). -/
theorem render_defaultTxt_field {reg : Symbol} {label : FieldLabel} {text : String} {bit : Bool}
    (htext : labelText defaultTxt reg label = text) (hbit : rendersAsBit reg label = bit) (dir : Dir)
    (value hi lo : Nat) :
    render defaultTxt (.field reg dir label value hi lo) =
      text ++ ": " ++ (if bit then bitchar value else hex value) := by
  rw [render_field, fieldValueText, htext, hbit]
  rfl

theorem render_defaultTxt_state (x : LState) :
    render defaultTxt (.state (.known x)) = defaultTxt.stateName.get x := rfl

theorem render_defaultTxt_degraded (x : LState) (e : BitfieldError) (s : BitString) :
    render defaultTxt (.degraded x e s) =
      "UNKNOWN (" ++ defaultTxt.stateName.get x ++ ", " ++ errorName defaultTxt e ++ "): " ++ bitsText s := rfl

theorem dirText_defaultTxt (dir : Dir) : dirText defaultTxt dir = if dir = .inbound then "in" else "out" := by
  cases dir <;> rfl

/-- D28: the `<dir>` word of a dmi summary in its split form. -/
theorem render_defaultTxt_dmiSplit (dir : Dir) (op ad data : Nat) :
    render defaultTxt (.cmd (.dmiSplit dir op ad data)) =
      (if dir = .inbound then "in" else "out") ++ " instr: " ++ hex op ++ " addr: " ++ hex ad ++ " data: " ++ hex data := by
  rw [← dirText_defaultTxt]
  rfl

/-- D28: the `<dir>` word of a dmi summary in its raw form. -/
theorem render_defaultTxt_dmiRaw (dir : Dir) (n : Nat) :
    render defaultTxt (.cmd (.dmiRaw dir n)) = (if dir = .inbound then "in" else "out") ++ " raw: " ++ hex n := by
  rw [← dirText_defaultTxt]
  rfl

/-- Settles O23. Each clause is the text of one kind of payload: the two tables (field labels, state names) are read off
`defaultTxt` row by row, and what is left computes from the operands. -/
theorem defaultTexts : Obligations.DefaultTexts := by
  unfold Obligations.DefaultTexts
  refine ⟨?fieldOfTxt, fun _ => rfl, rfl, rfl, ?fieldTable, fun _ => rfl, fun _ _ _ => rfl, by decide, by decide,
    fun _ _ _ => rfl, fun _ _ _ => rfl, fun _ _ _ => rfl, render_defaultTxt_dmiSplit, fun _ => rfl, ?stateTable,
    fun _ _ _ _ => rfl, fun _ _ => rfl, render_defaultTxt_dmiRaw, fun _ => rfl, ?unhandledCodes⟩
  case fieldOfTxt =>
    intro t reg dir label value hi lo
    rw [render_field]
    cases label <;> rfl
  case fieldTable =>
    intro e he
    obtain ⟨htext, hbit⟩ : labelText defaultTxt e.1 e.2.1 = e.2.2.1 ∧ rendersAsBit e.1 e.2.1 = e.2.2.2 := by
      revert e
      decide
    exact render_defaultTxt_field htext hbit
  case stateTable =>
    intro e he
    have hname : defaultTxt.stateName.get e.1 = e.2 := by
      revert e
      decide
    refine ⟨(render_defaultTxt_state e.1).trans hname, fun s => ⟨?_, ?_⟩⟩
    · rw [render_defaultTxt_degraded, hname]
      rfl
    · rw [render_defaultTxt_degraded, hname]
      rfl
  case unhandledCodes => decide

end Sys2Proof.Machine
end

section
/-! PROOFS. The closed form of every instruction: which operation an instruction is, and what that operation does to the
state, in the terms of `recordEffect`. -/

namespace Sys2Proof.Machine

/-! ### The parts of a record's effect, put together -/

section recordEffect_fields

variable (s : State) (r : SampleRange) (via final : Ls) (body : List Emission)

@[simp] theorem recordEffect_cfg : (recordEffect s r via final body).cfg = s.cfg := rfl
@[simp] theorem recordEffect_ls : (recordEffect s r via final body).ls = final := rfl
@[simp] theorem recordEffect_irsym : (recordEffect s r via final body).irsym = s.irsym := rfl
@[simp] theorem recordEffect_armed : (recordEffect s r via final body).armed = s.armed := rfl
@[simp] theorem recordEffect_input : (recordEffect s r via final body).input = s.input := rfl

end recordEffect_fields

/-- R80: the event entry alone. -/
theorem emitState_eq_recordEffect (r : SampleRange) (s : State) : emitState r s = recordEffect s r s.ls s.ls [] := by
  by_cases h : s.last = some s.ls <;> simp [emitState_eq, recordEffect, wantedBy, stateNote, h]

/-- An empty body does not tell whether a state is entered before or after it. -/
theorem recordEffect_enter_empty (r : SampleRange) (x : Ls) (s : State) :
    recordEffect s r s.ls x [] = recordEffect s r x x [] := by
  simp [recordEffect, wantedBy]

theorem emitAll_recordEffect (es : List Emission) (r : SampleRange) (x : Ls) (s : State) :
    emitAll es (recordEffect s r x x []) = recordEffect s r x x es := by
  simp [emitAll_eq, recordEffect, wantedBy, appended_append, Bool.or_assoc]

/-- What holds of every state annotation and of the body holds of all that a record asks for. -/
theorem forall_mem_wantedBy {p : Emission → Prop} {s : State} {r : SampleRange} {via final : Ls} {body : List Emission}
    (hnote : ∀ x, p (stateNote r x)) (hbody : ∀ e ∈ body, p e) : ∀ e ∈ wantedBy s r via final body, p e := by
  have hentry (P : Prop) [Decidable P] (x : Ls) : ∀ e ∈ (if P then [] else [stateNote r x]), p e := by
    split <;> simp [hnote]
  simp only [wantedBy, List.forall_mem_append]
  exact ⟨⟨⟨hentry _ _, hentry _ _⟩, hbody⟩, hentry _ _⟩

/-- R116: a state annotation over an invalid range is dropped. -/
theorem appended_note_of_not_rangeOk {r : SampleRange} (hr : rangeOk r = false) (t : Txt) (P : Prop) [Decidable P]
    (x : Ls) : appended t (if P then [] else [stateNote r x]) = [] := by
  split <;> simp [appended, stateNote, hr]

/-- The state entered after the body is announced last. -/
theorem wantedBy_final (s : State) (r : SampleRange) (via x : Ls) (body : List Emission) :
    wantedBy s r via x body = wantedBy s r via via body ++ if x = via then [] else [stateNote r x] := by
  simp [wantedBy]

/-- Under an invalid range a record that raises no flag asks for no announcement: the state it enters and leaves is the
announced one. -/
theorem last_eq_of_no_flag {s : State} {r : SampleRange} {via final : Ls} {body : List Emission}
    (hr : rangeOk r = false) (hflag : (wantedBy s r via final body).any (fun e => !rangeOk e.rng) = false) :
    s.last = some via ∧ final = via := by
  have hdue (P : Prop) [Decidable P] (x : Ls)
      (h : ∀ e ∈ (if P then [] else [stateNote r x]), rangeOk e.rng = true) : P := by
    by_contra hP
    simp [hP, stateNote, hr] at h
  have hall : ∀ e ∈ wantedBy s r via final body, rangeOk e.rng = true := by simpa using hflag
  simp only [wantedBy, List.forall_mem_append] at hall
  obtain ⟨⟨⟨hentry, hvia⟩, -⟩, hfinal⟩ := hall
  exact ⟨(hdue _ _ hentry).trans (congrArg some (hdue _ _ hvia).symm), hdue _ _ hfinal⟩

/-- A state entered after the body. Under a valid range `last` names `via`, so that the entry is announced exactly if it
differs from it; under an invalid one nothing is announced, and the flag is raised once an announcement was due. -/
theorem setls_recordEffect (r : SampleRange) (via x : Ls) (body : List Emission) (s : State) :
    setls x r (recordEffect s r via via body) = recordEffect s r via x body := by
  simp only [setls_eq, recordEffect, wantedBy_final s r via x body, appended_append, List.any_append]
  cases hr : rangeOk r with
  | true =>
    obtain rfl | hx := eq_or_ne x via
    · simp
    · simp [stateNote, hr, hx, hx.symm]
  | false =>
    rw [appended_note_of_not_rangeOk hr, appended_note_of_not_rangeOk hr]
    cases hflag : (wantedBy s r via via body).any (fun e => !rangeOk e.rng) with
    | true => simp
    | false =>
      obtain ⟨hlast, -⟩ := last_eq_of_no_flag hr hflag
      obtain rfl | hx := eq_or_ne x via
      · simp [hlast]
      · simp [hlast, stateNote, hr, hx, hx.symm]

/-- R80, R92: what every accepted DR record does first. -/
theorem enterDr_eq_recordEffect (r : SampleRange) (s : State) :
    enterDr r s = { recordEffect s r (dispatchState s) (dispatchState s) [] with armed := false } := by
  have hentry := emitState_eq_recordEffect r s
  cases harmed : s.armed with
  | false => simp [enterDr, owedTransition, dispatchState, harmed, hentry, recordEffect]
  | true =>
    have howed := setls_recordEffect r s.ls (.known (stateOf s.irsym)) [] s
    rw [← hentry, recordEffect_enter_empty] at howed
    simp [enterDr, owedTransition, dispatchState, harmed, ← howed, setls_eq, emitState_eq, disarm]

/-! ### Operations -/

/-- The operations that the rows of the opcode table are (R42), with their operands: rows that differ in the symbol, the
state or the direction only are one operation. -/
inductive Operation where
  /-- R72, R77: a record that is dropped -/
  | drop
  /-- R81 -/
  | tapReset (rng : SampleRange)
  /-- R82 -/
  | tapOther (rng : SampleRange)
  /-- R83 to R91: the load of a symbol -/
  | load (sym : Symbol) (rng : SampleRange)
  /-- R93, R97, R98: a DR record in one of the ten states -/
  | data (x : LState) (d : Dir) (c : Capture)
  /-- R95: a DR record in a state that is none of the ten -/
  | unhandled (k : Fin 6) (c : Capture)

/-- The operation of each instruction. -/
def operation : Instr → Operation
  | .stReset rng => .tapReset rng
  | .stOther _ rng => .tapOther rng
  | .irDtmcs c => .load .dtmcs (evr c)
  | .irDmi c => .load .dmi (evr c)
  | .irBypass c => .load .bypass (evr c)
  | .irBypassZero c => .load .bypass (evr c)
  | .irIdcode c => .load .idcode (evr c)
  | .irAbort c => .load .abort (evr c)
  | .irDpacc c => .load .dpacc (evr c)
  | .irApacc c => .load .apacc (evr c)
  | .irUnknown c => .load .unknown (evr c)
  | .irTdo _ => .drop
  | .driIdle c => .data .idle .inbound c
  | .droIdle c => .data .idle .outbound c
  | .driReset c => .data .reset .inbound c
  | .droReset c => .data .reset .outbound c
  | .driBypass c => .data .bypass .inbound c
  | .droBypass c => .data .bypass .outbound c
  | .driIdcode c => .data .idcode .inbound c
  | .droIdcode c => .data .idcode .outbound c
  | .driAbort c => .data .abort .inbound c
  | .droAbort c => .data .abort .outbound c
  | .driUnknown c => .data .unknown .inbound c
  | .droUnknown c => .data .unknown .outbound c
  | .driDtmcs c => .data .dtmcs .inbound c
  | .droDtmcs c => .data .dtmcs .outbound c
  | .driDmi c => .data .dmi .inbound c
  | .droDmi c => .data .dmi .outbound c
  | .driDpacc c => .data .dpacc .inbound c
  | .droDpacc c => .data .dpacc .outbound c
  | .driApacc c => .data .apacc .inbound c
  | .droApacc c => .data .apacc .outbound c
  | .driUnhandled k c => .unhandled k c
  | .droUnhandled k c => .unhandled k c
  | .dropReserved _ _ => .drop

/-- The model's meaning of each operation. -/
def Operation.run : Operation → State → State
  | .drop, s => s
  | .tapReset rng, s => setls (.known .reset) rng (disarm (emitState rng s))
  | .tapOther rng, s => emitState rng s
  | .load sym rng, s => if oneShot sym then loadOneShot sym rng s else loadContinuous sym rng s
  | .data x d c, s => dispatchDr x d c s
  | .unhandled k c, s => dispatchUnhandled k c s

/-- Every instruction runs its operation, and answers a next state. -/
theorem exec_eq_run (i : Instr) (s : State) : exec i s = .next ((operation i).run s) := by
  cases i <;> rfl

/-! ### The closed form of an operation -/

/-- All that an accepted record does to the state: the operands of `recordEffect`, and the new `irsym` and `armed`. -/
structure Effect where
  rng : SampleRange
  via : Ls
  final : Ls
  body : List Emission
  irsym : Symbol
  armed : Bool

/-- The state that an effect leaves. -/
def Effect.apply (e : Effect) (s : State) : State :=
  { recordEffect s e.rng e.via e.final e.body with irsym := e.irsym, armed := e.armed }

/-- Where the state `x` sends a DR record that was dispatched with `sel` in `ls` (R94, R97, R98). -/
def lsAfterData (sel : Ls) (x : LState) (d : Dir) : Ls :=
  if x = .reset ∨ (expects x d = true ∧ completes x d = true) then .known .idle else sel

/-- What the state `x` emits for a DR record: nothing in a direction that it does not expect (R93). -/
def dataBody (cfg : Config) (x : LState) (d : Dir) (c : Capture) : List Emission :=
  if expects x d then bodyOrDegraded cfg x d c else []

/-- The effect of each operation; a dropped record has none. -/
def Operation.effect : Operation → State → Option Effect
  | .drop, _ => none
  | .tapReset rng, s => some ⟨rng, s.ls, .known .reset, [], s.irsym, false⟩
  | .tapOther rng, s => some ⟨rng, s.ls, s.ls, [], s.irsym, s.armed⟩
  | .load sym rng, s => some ⟨rng, s.ls, if oneShot sym then s.ls else .known (stateOf sym), [], sym, oneShot sym⟩
  | .data x d c, s =>
    some ⟨evr c, dispatchState s, lsAfterData (dispatchState s) x d, dataBody s.cfg x d c, s.irsym, false⟩
  | .unhandled k c, s =>
    some ⟨evr c, dispatchState s, dispatchState s, [⟨evr c, .diagnostic, .unhandled k⟩], s.irsym, false⟩

/-- `setls` does not touch the two registers of the owed transition (R10, R11). -/
theorem setls_with_irsym_armed (x : Ls) (r : SampleRange) (sym : Symbol) (armed : Bool) (s : State) :
    setls x r { s with irsym := sym, armed := armed } = { setls x r s with irsym := sym, armed := armed } := by
  simp [setls_eq]

/-- A state entered after everything else, whatever `irsym` and `armed` have become. -/
theorem setls_recordEffect_with (r : SampleRange) (via x : Ls) (body : List Emission) (sym : Symbol) (armed : Bool)
    (s : State) :
    setls x r { recordEffect s r via via body with irsym := sym, armed := armed } =
      { recordEffect s r via x body with irsym := sym, armed := armed } := by
  rw [setls_with_irsym_armed, setls_recordEffect]

theorem emitAll_enterDr (es : List Emission) (r : SampleRange) (s : State) :
    emitAll es (enterDr r s) = { recordEffect s r (dispatchState s) (dispatchState s) es with armed := false } := by
  simp [enterDr_eq_recordEffect, ← emitAll_recordEffect es, emitAll_eq]

theorem loadOneShot_eq (sym : Symbol) (r : SampleRange) (s : State) :
    loadOneShot sym r s = { recordEffect s r s.ls s.ls [] with irsym := sym, armed := true } := by
  rw [← emitState_eq_recordEffect]
  rfl

theorem loadContinuous_eq (sym : Symbol) (r : SampleRange) (s : State) :
    loadContinuous sym r s =
      { recordEffect s r s.ls (.known (stateOf sym)) [] with irsym := sym, armed := false } := by
  rw [← setls_recordEffect_with, ← emitState_eq_recordEffect]
  rfl

theorem setls_reset_disarm_eq (r : SampleRange) (s : State) :
    setls (.known .reset) r (disarm (emitState r s)) =
      { recordEffect s r s.ls (.known .reset) [] with armed := false } := by
  rw [emitState_eq_recordEffect]
  exact setls_recordEffect_with r s.ls (.known .reset) [] s.irsym false s

theorem dispatchDr_eq (x : LState) (d : Dir) (c : Capture) (s : State) :
    dispatchDr x d c s =
      { recordEffect s (evr c) (dispatchState s) (lsAfterData (dispatchState s) x d) (dataBody s.cfg x d c) with
        armed := false } := by
  by_cases hreset : x = .reset
  · subst hreset
    rw [dispatchDr_reset, enterDr_eq_recordEffect, setls_recordEffect_with]
    simp [lsAfterData, dataBody, expects]
  cases hexp : expects x d with
  | false =>
    rw [dispatchDr_ignored x d c s hexp hreset, enterDr_eq_recordEffect]
    simp [lsAfterData, dataBody, hexp, hreset]
  | true =>
    rw [dispatchDr_expected x d c s hexp, emitAll_enterDr]
    obtain ⟨hdone, heq⟩ | ⟨hdone, heq⟩ := complete_cases x d (evr c)
      { recordEffect s (evr c) (dispatchState s) (dispatchState s) (bodyOrDegraded s.cfg x d c) with armed := false }
    · rw [heq, setls_recordEffect_with]
      simp [lsAfterData, dataBody, hexp, hdone]
    · rw [heq]
      simp [lsAfterData, dataBody, hexp, hdone, hreset]

theorem dispatchUnhandled_eq (k : Fin 6) (c : Capture) (s : State) :
    dispatchUnhandled k c s =
      { recordEffect s (evr c) (dispatchState s) (dispatchState s) [⟨evr c, .diagnostic, .unhandled k⟩] with
        armed := false } :=
  emitAll_enterDr [⟨evr c, .diagnostic, .unhandled k⟩] (evr c) s

/-- An operation applies its effect, in every state and for every range, valid or not. -/
theorem Operation.run_eq (op : Operation) (s : State) :
    op.run s = (op.effect s).elim s (fun e => e.apply s) := by
  cases op with
  | drop => rfl
  | tapReset rng => exact setls_reset_disarm_eq rng s
  | tapOther rng => exact emitState_eq_recordEffect rng s
  | load sym rng =>
    cases h : oneShot sym with
    | true =>
      simp only [run, effect, h, if_true]
      exact loadOneShot_eq sym rng s
    | false =>
      simp only [run, effect, h, Bool.false_eq_true, if_false]
      exact loadContinuous_eq sym rng s
  | data x d c => exact dispatchDr_eq x d c s
  | unhandled k c => exact dispatchUnhandled_eq k c s

end Sys2Proof.Machine
end

section
/-! PROOFS. The power-on state, the frames of the instructions, and what a step does not read (`10_state.md`). -/

namespace Sys2Proof.Machine

/-! ### The power-on state and the codes of the states -/

/-- Settles O1: `State.reset`, field by field. -/
theorem resetIsThePowerOnState : Obligations.ResetIsThePowerOnState :=
  ⟨rfl, rfl, rfl, rfl, rfl, rfl, rfl, rfl⟩

theorem lsOfCode_lsCode (x : Ls) : lsOfCode (lsCode x) = x := by
  cases x with
  | known x => cases x <;> rfl
  | spare k => revert k; decide

theorem lsCode_lsOfCode (c : BitVec 4) : lsCode (lsOfCode c) = c := by
  revert c
  decide

theorem lsCode_injective {x y : Ls} (h : lsCode x = lsCode y) : x = y := by
  rw [← lsOfCode_lsCode x, h, lsOfCode_lsCode]

/-- R21: bit 4 is the valid bit of the sentinel code, bits 3 to 0 the `ls` code. -/
theorem lastCode_some (x : Ls) :
    (lastCode (some x)).getMsbD 0 = true ∧ (lastCode (some x)).extractLsb' 0 4 = lsCode x := by
  simp only [lastCode]
  generalize lsCode x = c
  revert c
  decide

theorem lastCode_injective {x y : Option Ls} (h : lastCode x = lastCode y) : x = y := by
  cases x with
  | none =>
    cases y with
    | none => rfl
    | some y =>
      have hvalid := (lastCode_some y).1
      rw [← h] at hvalid
      exact absurd hvalid (by decide)
  | some x =>
    cases y with
    | none =>
      have hvalid := (lastCode_some x).1
      rw [h] at hvalid
      exact absurd hvalid (by decide)
    | some y =>
      have hcode : lsCode x = lsCode y := by rw [← (lastCode_some x).2, h, (lastCode_some y).2]
      rw [lsCode_injective hcode]

/-- Settles O20: the two round trips, and with the first one the injectivity of the sentinel code. -/
theorem lsCodesRoundTrip : Obligations.LsCodesRoundTrip :=
  ⟨lsOfCode_lsCode, lsCode_lsOfCode, fun _ _ => lastCode_injective⟩

/-! ### Frames -/

/-- R14, R13, R15, R19 (d): what every effect keeps. -/
theorem Effect.apply_frame (e : Effect) (s : State) :
    (e.apply s).cfg = s.cfg ∧ (e.apply s).input = s.input ∧ (∃ new, (e.apply s).out = s.out ++ new) ∧
      (s.faultIr = true → (e.apply s).faultIr = true) :=
  ⟨rfl, rfl, ⟨_, rfl⟩, fun h => by simp [apply, recordEffect, h]⟩

theorem Operation.run_frame (op : Operation) (s : State) :
    (op.run s).cfg = s.cfg ∧ (op.run s).input = s.input ∧ (∃ new, (op.run s).out = s.out ++ new) ∧
      (s.faultIr = true → (op.run s).faultIr = true) := by
  rw [op.run_eq]
  cases op.effect s with
  | none => exact ⟨rfl, rfl, ⟨[], (List.append_nil _).symm⟩, id⟩
  | some e => exact e.apply_frame s

/-- Settles O45. The common part is that of every operation; `irsym`, `ls` and `armed` are read off the operation's
effect. -/
theorem everyInstructionKeepsItsFrame : Obligations.EveryInstructionKeepsItsFrame := by
  unfold Obligations.EveryInstructionKeepsItsFrame
  intro i s t hexec
  obtain rfl : (operation i).run s = t := by simpa [exec_eq_run] using hexec
  obtain ⟨hcfg, hinput, hout, hflag⟩ := (operation i).run_frame s
  refine ⟨hcfg, hinput, hout, hflag, ?irsym, ?lsArmed⟩
  case irsym =>
    rw [Operation.run_eq]
    cases i
    case irDtmcs | irDmi | irBypass | irBypassZero | irIdcode | irAbort | irDpacc | irApacc | irUnknown => trivial
    all_goals rfl
  case lsArmed =>
    rw [Operation.run_eq]
    cases i
    case stOther | irTdo | dropReserved => exact ⟨rfl, rfl⟩
    case irBypass | irBypassZero | irIdcode | irAbort | irDpacc | irApacc | irUnknown => exact ⟨rfl, rfl⟩
    all_goals rfl

/-! ### The operation that a step runs -/

/-- The operation of a record, in the terms of the decoder; a malformed record is dropped (R72, R136). -/
def recordOperation (cfg : Config) (sel : Ls) (r : Record) : Operation :=
  match decode cfg sel r with
  | .ok i => operation i
  | .error _ => .drop

theorem step_of_cons {s : State} {r : Record} {rest : List Record} (hin : s.input = r :: rest) :
    step s = .next ((recordOperation s.cfg (dispatchState s) r).run { s with input := rest }) := by
  unfold recordOperation
  cases hdec : decode s.cfg (dispatchState s) r with
  | ok i => rw [step_of_decode_ok hin hdec, exec_eq_run]
  | error e => rw [step_of_decode_error hin hdec]; rfl

/-- All that a step can do: hold the state, or take the oldest record and run its operation. -/
theorem step_eq_next {s t : State} (h : step s = .next t) :
    (s.input = [] ∧ t = s) ∨
      ∃ r rest, s.input = r :: rest ∧
        t = (recordOperation s.cfg (dispatchState s) r).run { s with input := rest } := by
  rcases hin : s.input with _ | ⟨r, rest⟩
  · rw [step_of_nil hin] at h
    exact .inl ⟨rfl, (Host.Outcome.next.inj h).symm⟩
  · rw [step_of_cons hin] at h
    exact .inr ⟨r, rest, rfl, (Host.Outcome.next.inj h).symm⟩

/-! ### What a step does not read -/

/-- R14: annotations put in front of the trace stay in front of it, and change nothing else. -/
theorem Operation.run_out_append (op : Operation) (s : State) (before : List Annotation) :
    op.run { s with out := before ++ s.out } = { op.run s with out := before ++ (op.run s).out } := by
  have heffect : op.effect { s with out := before ++ s.out } = op.effect s := by cases op <;> rfl
  rw [op.run_eq, op.run_eq, heffect]
  cases op.effect s with
  | none => rfl
  | some e => simp [Effect.apply, recordEffect, wantedBy, List.append_assoc]

/-- Settles O58: the record decodes as before, and its operation does not read the trace. -/
theorem outputIsNeverRead : Obligations.OutputIsNeverRead := by
  unfold Obligations.OutputIsNeverRead
  intro s t before hstep
  obtain ⟨hin, rfl⟩ | ⟨r, rest, hin, rfl⟩ := step_eq_next hstep
  · exact step_of_nil hin
  · rw [step_of_cons (s := { s with out := before ++ s.out }) hin, ← Operation.run_out_append]
    rfl

/-- R10: with nothing owed an operation either loads its own symbol or leaves the old one; the rest it does the same. -/
theorem Operation.run_irsym (op : Operation) (s : State) (sym : Symbol) (harmed : s.armed = false) :
    { op.run { s with irsym := sym } with irsym := (op.run s).irsym } = op.run s ∧
      ((op.run { s with irsym := sym }).irsym = (op.run s).irsym ∨ (op.run { s with irsym := sym }).irsym = sym) := by
  rw [op.run_eq, op.run_eq]
  cases op with
  | drop => exact ⟨rfl, .inr rfl⟩
  | tapReset rng => exact ⟨rfl, .inr rfl⟩
  | tapOther rng => exact ⟨rfl, .inr rfl⟩
  | load sym rng => exact ⟨rfl, .inl rfl⟩
  | data x d c => exact ⟨by simp [effect, Effect.apply, recordEffect, wantedBy, dispatchState, harmed], .inr rfl⟩
  | unhandled k c => exact ⟨by simp [effect, Effect.apply, recordEffect, wantedBy, dispatchState, harmed], .inr rfl⟩

/-- Settles O59: with nothing owed the dispatch state is `ls`, so the record decodes as before. -/
theorem irsymIsReadOnlyWhileArmed : Obligations.IrsymIsReadOnlyWhileArmed := by
  unfold Obligations.IrsymIsReadOnlyWhileArmed
  intro s t sym harmed hstep
  obtain ⟨hin, rfl⟩ | ⟨r, rest, hin, rfl⟩ := step_eq_next hstep
  · exact ⟨_, step_of_nil hin, rfl, .inr rfl⟩
  · have hsel : dispatchState { s with irsym := sym } = dispatchState s := by simp [dispatchState, harmed]
    refine ⟨_, step_of_cons (s := { s with irsym := sym }) hin, ?_⟩
    rw [hsel]
    exact Operation.run_irsym _ { s with input := rest } sym harmed

end Sys2Proof.Machine
end

section
/-! PROOFS. The invariant of the machine (`10_state.md` R9, R12, R19; `45_emitter.md` R116, R117, R126). -/

namespace Sys2Proof.Machine

/-! ### What a decoder body emits -/

/-- The annotations of a decoder body (R119, R120): a field of the capture `c` over its own range, or a note over the event
range `r`. None of them is a state annotation. -/
inductive BodyNote (c : Capture) (r : SampleRange) : Emission → Prop where
  | field {reg : Symbol} {d : Dir} {label : FieldLabel} {value hi lo : Nat} (hlo : lo ≤ hi) (hhi : hi < c.bits.length) :
      BodyNote c r ⟨fieldRange c hi lo, .field, .field reg d label value hi lo⟩
  | event {ch : Channel} {p : Payload} (hch : ch = payloadChannel p) (hp : ∀ x, p ≠ .state x) : BodyNote c r ⟨r, ch, p⟩

theorem bodyNote_summary (c : Capture) (r : SampleRange) (cmd : Command) : BodyNote c r (summary r cmd) :=
  .event rfl (by nofun)

/-- A length test that has been passed. -/
theorem guard_ok {α : Type} {P : Prop} [Decidable P] {e : BitfieldError} {rest : Except BitfieldError α} {v : α}
    (h : (if P then .error e else rest) = .ok v) : ¬P ∧ rest = .ok v := by
  by_cases hP : P
  · simp [hP] at h
  · exact ⟨hP, by simpa [hP] using h⟩

section bodies

variable {c : Capture} {r : SampleRange} {es : List Emission}

theorem bodyBypass_notes (h : bodyBypass c r = .ok es) : ∀ e ∈ es, BodyNote c r e := by
  cases h
  exact List.forall_mem_singleton.2 (.event rfl (by nofun))

theorem bodyIdcode_notes (h : bodyIdcode c r = .ok es) : ∀ e ∈ es, BodyNote c r e := by
  obtain ⟨hlen, h⟩ := guard_ok h
  cases h
  simp only [List.forall_mem_cons]
  refine ⟨.field ?_ ?_, .field ?_ ?_, .field ?_ ?_, .field ?_ ?_, .field ?_ ?_, .field ?_ ?_, bodyNote_summary ..,
    by simp⟩ <;> omega

theorem bodyAbort_notes (h : bodyAbort c r = .ok es) : ∀ e ∈ es, BodyNote c r e := by
  obtain ⟨hlen, h⟩ := guard_ok h
  cases h
  simp only [List.forall_mem_append, List.forall_mem_cons]
  refine ⟨⟨.field ?_ ?_, .field ?_ ?_, bodyNote_summary .., by simp⟩, ?warning⟩
  case warning =>
    split
    · simp
    · exact List.forall_mem_singleton.2 (.event rfl (by nofun))
  all_goals omega

theorem bodyUnknown_notes (h : bodyUnknown c r = .ok es) : ∀ e ∈ es, BodyNote c r e := by
  cases h
  exact List.forall_mem_singleton.2 (bodyNote_summary ..)

theorem bodyAccessIn_notes {reg : Symbol} (h : bodyAccessIn reg c r = .ok es) : ∀ e ∈ es, BodyNote c r e := by
  obtain ⟨hshort, h⟩ := guard_ok h
  obtain ⟨hempty, h⟩ := guard_ok h
  cases h
  simp only [List.forall_mem_cons]
  refine ⟨.field ?_ ?_, .field ?_ ?_, .field ?_ ?_, bodyNote_summary .., by simp⟩ <;> omega

theorem bodyAccessOut_notes {reg : Symbol} (h : bodyAccessOut reg c r = .ok es) : ∀ e ∈ es, BodyNote c r e := by
  obtain ⟨hshort, h⟩ := guard_ok h
  obtain ⟨hempty, h⟩ := guard_ok h
  cases h
  simp only [List.forall_mem_cons]
  refine ⟨.field ?_ ?_, .field ?_ ?_, bodyNote_summary .., by simp⟩ <;> omega

theorem bodyDtmcsIn_notes (h : bodyDtmcsIn c r = .ok es) : ∀ e ∈ es, BodyNote c r e := by
  obtain ⟨hlen, h⟩ := guard_ok h
  cases h
  simp only [List.forall_mem_cons]
  refine ⟨.field ?_ ?_, .field ?_ ?_, .field ?_ ?_, .field ?_ ?_, bodyNote_summary .., by simp⟩ <;> omega

theorem bodyDtmcsOut_notes (h : bodyDtmcsOut c r = .ok es) : ∀ e ∈ es, BodyNote c r e := by
  obtain ⟨hlen, h⟩ := guard_ok h
  cases h
  simp only [List.forall_mem_cons]
  refine ⟨.field ?_ ?_, .field ?_ ?_, bodyNote_summary .., by simp⟩ <;> omega

theorem bodyDmi_notes {d : Dir} (h : bodyDmi d c r = .ok es) : ∀ e ∈ es, BodyNote c r e := by
  unfold bodyDmi at h
  split at h
  case isTrue hlen =>
    cases h
    simp only [List.forall_mem_cons]
    refine ⟨.field ?_ ?_, .field ?_ ?_, .field ?_ ?_, bodyNote_summary .., by simp⟩ <;> omega
  case isFalse =>
    split at h
    · cases h
    · cases h
      exact List.forall_mem_singleton.2 (bodyNote_summary ..)

/-- What any decoder body emits. -/
theorem decoderBody_notes {x : LState} {d : Dir} (h : decoderBody x d c r = .ok es) : ∀ e ∈ es, BodyNote c r e := by
  have hnone (h : Except.ok [] = (.ok es : Except BitfieldError (List Emission))) : ∀ e ∈ es, BodyNote c r e := by
    cases h
    simp
  cases x with
  | idle | reset => exact hnone h
  | bypass => cases d <;> [exact bodyBypass_notes h; exact hnone h]
  | idcode => cases d <;> [exact hnone h; exact bodyIdcode_notes h]
  | abort => cases d <;> [exact bodyAbort_notes h; exact hnone h]
  | unknown => cases d <;> [exact bodyUnknown_notes h; exact hnone h]
  | dtmcs => cases d <;> [exact bodyDtmcsIn_notes h; exact bodyDtmcsOut_notes h]
  | dmi => exact bodyDmi_notes h
  | dpacc => cases d <;> [exact bodyAccessIn_notes h; exact bodyAccessOut_notes h]
  | apacc => cases d <;> [exact bodyAccessIn_notes h; exact bodyAccessOut_notes h]

end bodies

/-- R93: stripping takes bits away at the top end, so a field of the stripped capture is a field of the received one. -/
theorem BodyNote.of_stripLead {k : Nat} {c v : Capture} {r : SampleRange} {e : Emission} (hv : stripLead k c = .ok v)
    (he : BodyNote v r e) : BodyNote c r e := by
  obtain ⟨hk, hv⟩ := guard_ok hv
  cases hv
  cases he with
  | event hch hp => exact .event hch hp
  | @field _ _ _ _ hi lo hlo hhi =>
    simp only [List.length_drop] at hhi
    have hsr (i : Nat) (hi : i < c.bits.length - k) : srAt (c.sr.take (c.bits.length - k)) i = srAt c.sr i := by
      simp [srAt, List.getElem?_take_of_lt hi]
    have hrange : fieldRange ⟨c.bits.drop k, c.sr.take (c.bits.length - k)⟩ hi lo = fieldRange c hi lo := by
      simp [fieldRange, hsr hi hhi, hsr lo (by omega)]
    rw [hrange]
    exact .field hlo (by omega)

/-- What a DR record emits beside state annotations, degraded or not. -/
theorem dataBody_notes {cfg : Config} {x : LState} {d : Dir} {c : Capture} :
    ∀ e ∈ dataBody cfg x d c, BodyNote c (evr c) e := by
  unfold dataBody bodyOrDegraded
  split
  · split
    next es hes =>
      unfold tryDecode at hes
      split at hes
      · cases hes
      next v hv => exact fun e he => (decoderBody_notes hes e he).of_stripLead hv
    next err _ => exact List.forall_mem_singleton.2 (.event rfl (by nofun))
  · simp

/-! ### State annotations along the trace -/

/-- The names of the announced states, one announcement later: a state is announced where it differs from the newest
one (R118). -/
def announce (xs : List Ls) (x : Ls) : List Ls :=
  xs ++ if xs.getLast? = some x then [] else [x]

@[simp] theorem getLast?_announce (xs : List Ls) (x : Ls) : (announce xs x).getLast? = some x := by
  unfold announce
  split <;> simp [*]

theorem noRepeat_append_singleton {xs : List Ls} {x : Ls} (hxs : noRepeat xs = true) (hx : xs.getLast? ≠ some x) :
    noRepeat (xs ++ [x]) = true := by
  induction xs with
  | nil => rfl
  | cons y ys ih =>
    cases ys with
    | nil => simpa [noRepeat] using hx
    | cons z zs =>
      simp only [noRepeat, Bool.and_eq_true, List.cons_append] at hxs ⊢
      exact ⟨hxs.1, ih hxs.2 (by simpa using hx)⟩

theorem noRepeat_announce {xs : List Ls} (x : Ls) (hxs : noRepeat xs = true) : noRepeat (announce xs x) = true := by
  unfold announce
  split
  · simpa using hxs
  · exact noRepeat_append_singleton hxs ‹_›

theorem announce_of_getLast? {xs : List Ls} {y : Ls} (x : Ls) (hy : xs.getLast? = some y) :
    announce xs x = xs ++ if x = y then [] else [x] := by
  simp [announce, hy, eq_comm]

theorem stateNames_append (as bs : List Annotation) : stateNames (as ++ bs) = stateNames as ++ stateNames bs :=
  List.filterMap_append

/-- A body adds no state annotation. -/
theorem stateNames_appended_body {t : Txt} {c : Capture} {r : SampleRange} {es : List Emission}
    (h : ∀ e ∈ es, BodyNote c r e) : stateNames (appended t es) = [] := by
  simp only [stateNames, appended, List.filterMap_eq_nil_iff, List.mem_map, List.mem_filter]
  rintro _ ⟨e, ⟨he, -⟩, rfl⟩
  cases h e he with
  | field => rfl
  | @event _ p _ hp =>
    cases p with
    | state x => exact absurd rfl (hp x)
    | _ => rfl

/-- The announcements of an effect over a valid range: the event entry, then `via`, then `final`. -/
theorem Effect.stateNames_apply_of_rangeOk {e : Effect} {s : State} {c : Capture} (hr : rangeOk e.rng = true)
    (hlast : s.last = (stateNames s.out).getLast?) (hbody : ∀ b ∈ e.body, BodyNote c e.rng b) :
    stateNames (e.apply s).out = announce (announce (announce (stateNames s.out) s.ls) e.via) e.final := by
  have hnote (P : Prop) [Decidable P] (x : Ls) :
      stateNames (appended s.cfg.txt (if P then [] else [stateNote e.rng x])) = if P then [] else [x] := by
    split <;> simp [appended, stateNote, stateNames, annotation, hr]
  rw [announce_of_getLast? e.final (getLast?_announce _ e.via), announce_of_getLast? e.via (getLast?_announce _ s.ls)]
  simp [apply, recordEffect, wantedBy, appended_append, stateNames_append, hnote, stateNames_appended_body hbody, hlast,
    announce]

/-- Over an invalid range an effect announces nothing. -/
theorem Effect.stateNames_apply_of_not_rangeOk {e : Effect} {s : State} {c : Capture} (hr : rangeOk e.rng = false)
    (hbody : ∀ b ∈ e.body, BodyNote c e.rng b) : stateNames (e.apply s).out = stateNames s.out := by
  simp [apply, recordEffect, wantedBy, appended_append, stateNames_append, appended_note_of_not_rangeOk hr,
    stateNames_appended_body hbody]

/-! ### The invariant -/

/-- R116, R117: the records that are appended for emissions on their payloads' channels are as `emit` makes them. -/
theorem appended_annotationOk {t : Txt} {es : List Emission} (h : ∀ e ∈ es, e.ch = payloadChannel e.payload) :
    ∀ a ∈ appended t es, annotationOk t a := by
  simp only [appended, List.mem_map, List.mem_filter]
  rintro _ ⟨e, ⟨he, hr⟩, rfl⟩
  exact ⟨of_decide_eq_true hr, h e he, rfl⟩

theorem BodyNote.ch_eq {c : Capture} {r : SampleRange} {e : Emission} (h : BodyNote c r e) :
    e.ch = payloadChannel e.payload := by
  cases h with
  | field => rfl
  | event hch => exact hch

/-- What an effect needs for the invariant: it leaves one of the ten states, owes a transition for a one-shot symbol
only, and its body is a decoder's. -/
structure Effect.Sound (e : Effect) : Prop where
  finalKnown : ∃ x, e.final = .known x
  armedOneShot : e.armed = true → oneShot e.irsym = true
  bodyNotes : ∃ c, ∀ b ∈ e.body, BodyNote c e.rng b

theorem Effect.Sound.apply_inv {e : Effect} {s : State} (he : e.Sound) (hs : MachineInv s) :
    MachineInv (e.apply s) := by
  obtain ⟨c, hbody⟩ := he.bodyNotes
  have houtOk : ∀ a ∈ (e.apply s).out, annotationOk s.cfg.txt a :=
    List.forall_mem_append.2
      ⟨hs.outOk, appended_annotationOk (forall_mem_wantedBy (fun _ => rfl) fun b hb => (hbody b hb).ch_eq)⟩
  cases hr : rangeOk e.rng with
  | true =>
    have hlast : (e.apply s).last = some e.final := if_pos hr
    have hnames := stateNames_apply_of_rangeOk hr hs.lastIsNewest hbody
    exact {
      lsKnown := he.finalKnown
      armedOneShot := he.armedOneShot
      outOk := houtOk
      lastIsNewest := by rw [hlast, hnames, getLast?_announce]
      notesDiffer := by
        rw [hnames]
        exact noRepeat_announce _ (noRepeat_announce _ (noRepeat_announce _ hs.notesDiffer))
      announced := fun _ => .inl hlast }
  | false =>
    have hlast : (e.apply s).last = s.last := by simp [apply, recordEffect, hr]
    have hnames := stateNames_apply_of_not_rangeOk (s := s) hr hbody
    exact {
      lsKnown := he.finalKnown
      armedOneShot := he.armedOneShot
      outOk := houtOk
      lastIsNewest := by rw [hlast, hnames, hs.lastIsNewest]
      notesDiffer := by rw [hnames, hs.notesDiffer]
      announced := by
        intro hflag
        obtain ⟨hvia, hfinal⟩ := last_eq_of_no_flag hr (Bool.or_eq_false_iff.1 hflag).2
        exact .inl (by rw [hlast, hvia, ← hfinal]; rfl) }

/-- Under the invariant a DR record is dispatched in one of the ten states. -/
theorem MachineInv.dispatchState_known {s : State} (hs : MachineInv s) : ∃ x, dispatchState s = .known x := by
  unfold dispatchState
  split
  · exact ⟨_, rfl⟩
  · exact hs.lsKnown

theorem Operation.effect_sound {op : Operation} {s : State} {e : Effect} (hs : MachineInv s)
    (he : op.effect s = some e) : e.Sound := by
  have hnil : ∀ r, ∃ c, ∀ b ∈ ([] : List Emission), BodyNote c r b := fun _ => ⟨⟨[], []⟩, by simp⟩
  cases op with
  | drop => cases he
  | tapReset rng =>
    cases he
    exact ⟨⟨_, rfl⟩, by simp, hnil rng⟩
  | tapOther rng =>
    cases he
    exact ⟨hs.lsKnown, hs.armedOneShot, hnil rng⟩
  | load sym rng =>
    cases he
    refine ⟨?_, id, hnil rng⟩
    split
    · exact hs.lsKnown
    · exact ⟨_, rfl⟩
  | data x d c =>
    cases he
    refine ⟨?_, by simp, c, dataBody_notes⟩
    unfold lsAfterData
    split
    · exact ⟨_, rfl⟩
    · exact hs.dispatchState_known
  | unhandled k c =>
    cases he
    exact ⟨hs.dispatchState_known, by simp, c, List.forall_mem_singleton.2 (.event rfl (by nofun))⟩

theorem Operation.run_inv (op : Operation) {s : State} (hs : MachineInv s) : MachineInv (op.run s) := by
  rw [op.run_eq]
  cases he : op.effect s with
  | none => exact hs
  | some e => exact (effect_sound hs he).apply_inv hs

/-- The invariant does not speak of the waiting records. -/
theorem MachineInv.with_input {s : State} (hs : MachineInv s) (rest : List Record) :
    MachineInv { s with input := rest } :=
  { hs with }

theorem machineInv_step {s t : State} (hs : MachineInv s) (hstep : step s = .next t) : MachineInv t := by
  obtain ⟨-, rfl⟩ | ⟨r, rest, -, rfl⟩ := step_eq_next hstep
  · exact hs
  · exact Operation.run_inv _ (hs.with_input rest)

/-- Settles O53: nothing is announced and nothing is owed yet. -/
theorem invariantHoldsAtReset : Obligations.InvariantHoldsAtReset where
  lsKnown := ⟨.idle, rfl⟩
  armedOneShot := by nofun
  outOk := fun _ h => absurd h List.not_mem_nil
  lastIsNewest := rfl
  notesDiffer := rfl
  announced := fun _ => .inr ⟨rfl, rfl, rfl⟩

/-- Settles O54: a step runs one operation, and the effect of every operation is sound. -/
theorem everyStepKeepsTheInvariant : Obligations.EveryStepKeepsTheInvariant :=
  fun _ _ => machineInv_step

end Sys2Proof.Machine
end

section
/-! PROOFS. Records with valid ranges: they never raise the flag, however many of them are run (`60_exceptions.md` R132,
`70_reset_and_hazards.md` R149). -/

namespace Sys2Proof.Machine

/-! ### Valid ranges -/

theorem rangesOk_cons {r : SampleRange} {rs : List SampleRange} (h : rangesOk (r :: rs) = true) :
    rangeOk r = true ∧ rangesOk rs = true ∧ ∀ q ∈ rs.head?, r.es ≤ q.ss := by
  cases rs with
  | nil => exact ⟨h, rfl, by simp⟩
  | cons q rs =>
    simp only [rangesOk, Bool.and_eq_true, decide_eq_true_eq] at h
    obtain ⟨⟨hr, hle⟩, hrs⟩ := h
    exact ⟨hr, hrs, by simpa using hle⟩

/-- In shift order no range starts after a later one ends. -/
theorem srAt_ss_lt_es {rs : List SampleRange} (h : rangesOk rs = true) {i j : Nat} (hij : i ≤ j) (hj : j < rs.length) :
    (srAt rs i).ss < (srAt rs j).es := by
  induction rs generalizing i j with
  | nil => simp at hj
  | cons r rs ih =>
    obtain ⟨hr, hrs, hle⟩ := rangesOk_cons h
    have hfirst : r.ss < r.es := of_decide_eq_true hr
    cases i with
    | succ i =>
      cases j with
      | zero => omega
      | succ j => exact ih hrs (by omega) (by simpa using hj)
    | zero =>
      cases j with
      | zero => exact hfirst
      | succ j =>
        have hlater : (srAt rs 0).ss < (srAt rs j).es := ih hrs (Nat.zero_le j) (by simpa using hj)
        cases rs with
        | nil => simp at hj
        | cons q rs =>
          have hnext : r.es ≤ q.ss := hle q rfl
          change r.ss < (srAt (q :: rs) j).es
          change q.ss < _ at hlater
          omega

/-- A capture that the classifier accepts, with the ranges that R149 (c) asks for. -/
structure CaptureRangesOk (c : Capture) : Prop where
  nonempty : 0 < c.bits.length
  length_eq : c.sr.length = c.bits.length
  ranges : rangesOk c.sr = true

section

variable {c : Capture} (hc : CaptureRangesOk c)
include hc

theorem CaptureRangesOk.fieldRange_ok {hi lo : Nat} (hlo : lo ≤ hi) (hhi : hi < c.bits.length) :
    rangeOk (fieldRange c hi lo) = true :=
  decide_eq_true (srAt_ss_lt_es hc.ranges hlo (hc.length_eq ▸ hhi))

theorem CaptureRangesOk.evr_ok : rangeOk (evr c) = true :=
  hc.fieldRange_ok (Nat.zero_le _) (Nat.sub_lt hc.nonempty Nat.one_pos)

theorem CaptureRangesOk.bodyNote_ok {r : SampleRange} {e : Emission} (hr : rangeOk r = true) (he : BodyNote c r e) :
    rangeOk e.rng = true := by
  cases he with
  | field hlo hhi => exact hc.fieldRange_ok hlo hhi
  | event => exact hr

end

/-! ### The operations of such records -/

/-- The ranges of an operation's operands are valid. -/
def Operation.RangesOk : Operation → Prop
  | .drop => True
  | .tapReset rng => rangeOk rng = true
  | .tapOther rng => rangeOk rng = true
  | .load _ rng => rangeOk rng = true
  | .data _ _ c => CaptureRangesOk c
  | .unhandled _ c => CaptureRangesOk c

/-- R72, R73: the classifier reverses the ranges once, and passes a capture of at least one bit. -/
theorem classifyCapture_rangesOk {p : RawCapture} {c : Capture} (hc : classifyCapture p = .ok c)
    (hp : rangesOk p.ranges.reverse = true) : CaptureRangesOk c := by
  obtain ⟨hwf, rfl⟩ := classifyCapture_ok hc
  simp only [Capture.wellFormed, Bool.and_eq_true, Bool.not_eq_true', List.isEmpty_eq_false_iff, beq_iff_eq] at hwf
  obtain ⟨hne, hlen⟩ := hwf
  exact ⟨List.length_pos_iff.2 hne, hlen, by simpa [rawOf] using hp⟩

theorem operation_selectIr (cfg : Config) (c : Capture) :
    operation (selectIr cfg c) = .load (irLookup cfg c.bits).1 (evr c) := by
  unfold selectIr
  cases h : (irLookup cfg c.bits).1 with
  | bypass =>
    dsimp only
    split <;> rfl
  | _ => rfl

/-- The operation of a DR record, by the dispatch state. -/
def dataOperation (sel : Ls) (d : Dir) (c : Capture) : Operation :=
  match sel with
  | .known x => .data x d c
  | .spare k => .unhandled k c

theorem operation_selectDri (sel : Ls) (c : Capture) : operation (selectDri sel c) = dataOperation sel .inbound c := by
  cases sel with
  | known x => cases x <;> rfl
  | spare k => rfl

theorem operation_selectDro (sel : Ls) (c : Capture) : operation (selectDro sel c) = dataOperation sel .outbound c := by
  cases sel with
  | known x => cases x <;> rfl
  | spare k => rfl

theorem dataOperation_rangesOk {sel : Ls} {d : Dir} {c : Capture} (hc : CaptureRangesOk c) :
    (dataOperation sel d c).RangesOk := by
  cases sel <;> exact hc

/-- A format-B record runs an operation on its capture, unless it is malformed and dropped. -/
theorem recordOperation_rangesOk_of_capture {cfg : Config} {sel : Ls} {r : Record} {p : RawCapture}
    {select : Capture → Instr} (hdec : decode cfg sel r = (classifyCapture p).map select)
    (hp : rangesOk p.ranges.reverse = true) (hop : ∀ c, CaptureRangesOk c → (operation (select c)).RangesOk) :
    (recordOperation cfg sel r).RangesOk := by
  unfold recordOperation
  rw [hdec]
  cases hc : classifyCapture p with
  | error e => trivial
  | ok c => exact hop c (classifyCapture_rangesOk hc hp)

theorem recordOperation_rangesOk {r : Record} (cfg : Config) (sel : Ls) (hr : recordRangesOk r = true) :
    (recordOperation cfg sel r).RangesOk := by
  cases r with
  | stateChange name rng =>
    change (operation (selectSt cfg name rng)).RangesOk
    unfold selectSt
    split <;> exact hr
  | irTdi p =>
    refine recordOperation_rangesOk_of_capture rfl hr fun c hc => ?_
    rw [operation_selectIr]
    exact hc.evr_ok
  | drTdi p =>
    refine recordOperation_rangesOk_of_capture rfl hr fun c hc => ?_
    rw [operation_selectDri]
    exact dataOperation_rangesOk hc
  | drTdo p =>
    refine recordOperation_rangesOk_of_capture rfl hr fun c hc => ?_
    rw [operation_selectDro]
    exact dataOperation_rangesOk hc
  | irTdo p => trivial
  | reserved k p => trivial

/-! ### The flag -/

/-- R132: an effect that asks for valid ranges only leaves the flag as it is. -/
theorem Effect.apply_faultIr {e : Effect} (s : State) (hrng : rangeOk e.rng = true)
    (hbody : ∀ b ∈ e.body, rangeOk b.rng = true) : (e.apply s).faultIr = s.faultIr := by
  have hwanted : ∀ b ∈ wantedBy s e.rng e.via e.final e.body, rangeOk b.rng = true :=
    forall_mem_wantedBy (fun _ => hrng) hbody
  have hany : (wantedBy s e.rng e.via e.final e.body).any (fun b => !rangeOk b.rng) = false := by
    simpa using hwanted
  simp [apply, recordEffect, hany]

theorem Operation.RangesOk.effect_ranges {op : Operation} {s : State} {e : Effect} (hop : op.RangesOk)
    (he : op.effect s = some e) : rangeOk e.rng = true ∧ ∀ b ∈ e.body, rangeOk b.rng = true := by
  cases op with
  | drop => cases he
  | tapReset | tapOther | load =>
    cases he
    exact ⟨hop, by simp⟩
  | data x d c =>
    cases he
    exact ⟨hop.evr_ok, fun b hb => hop.bodyNote_ok hop.evr_ok (dataBody_notes b hb)⟩
  | unhandled k c =>
    cases he
    exact ⟨hop.evr_ok, List.forall_mem_singleton.2 hop.evr_ok⟩

theorem Operation.RangesOk.run_faultIr {op : Operation} (hop : op.RangesOk) (s : State) :
    (op.run s).faultIr = s.faultIr := by
  rw [op.run_eq]
  cases he : op.effect s with
  | none => rfl
  | some e =>
    obtain ⟨hrng, hbody⟩ := hop.effect_ranges he
    exact e.apply_faultIr s hrng hbody

/-! ### Runs -/

/-- What a run on records with valid ranges keeps. -/
structure ValidRun (s : State) : Prop where
  inv : MachineInv s
  flagClear : s.faultIr = false
  waitingOk : ∀ r ∈ s.input, recordRangesOk r = true

theorem ValidRun.step {s : State} (hs : ValidRun s) : ∃ t, Machine.step s = .next t ∧ ValidRun t := by
  rcases hin : s.input with _ | ⟨r, rest⟩
  · exact ⟨s, step_of_nil hin, hs⟩
  · have hstep := step_of_cons hin
    have hwaiting := hs.waitingOk
    rw [hin, List.forall_mem_cons] at hwaiting
    obtain ⟨hr, hrest⟩ := hwaiting
    have hop := recordOperation_rangesOk s.cfg (dispatchState s) hr
    obtain ⟨-, hinput, -, -⟩ :=
      (recordOperation s.cfg (dispatchState s) r).run_frame { s with input := rest }
    exact ⟨_, hstep, machineInv_step hs.inv hstep, (hop.run_faultIr _).trans hs.flagClear, hinput ▸ hrest⟩

theorem ValidRun.run {s : State} (hs : ValidRun s) (n : Nat) :
    ∃ t, Sys2Proof.core.run n s = .next t ∧ ValidRun t := by
  induction n generalizing s with
  | zero => exact ⟨s, rfl, hs⟩
  | succ n ih =>
    obtain ⟨u, hstep, hu⟩ := hs.step
    obtain ⟨t, hrun, ht⟩ := ih hu
    refine ⟨t, ?_, ht⟩
    have hcore : Sys2Proof.core.step s = .next u := hstep
    simp only [Host.Core.run, hcore]
    exact hrun

/-- Settles O56, by induction on the number of steps. -/
theorem runsOnValidRangesStayFaultFree : Obligations.RunsOnValidRangesStayFaultFree := by
  unfold Obligations.RunsOnValidRangesStayFaultFree
  intro n s hinv hflag hwaiting
  obtain ⟨t, hrun, ht⟩ := ValidRun.run ⟨hinv, hflag, hwaiting⟩ n
  exact ⟨t, hrun, ht.inv, ht.flagClear⟩

end Sys2Proof.Machine
end

section
/-! PROOFS. The order in which bits and records arrive (`20_memory.md`): bits that are shifted later leave the earlier
fields alone (R29, R31), an IR load decides how the next DR record is dispatched (R39), and records that arrive later
leave the work on the earlier ones alone (R37). -/

namespace Sys2Proof.Machine

/-! ### Fields under later bits -/

/-- A field in terms of the bits up to its top one alone. -/
theorem field_eq_mod_div (s : BitString) {hi lo : Nat} (h : lo ≤ hi) :
    field s hi lo = val s % 2 ^ (hi + 1) / 2 ^ lo := by
  have hpow : 2 ^ (hi + 1) = 2 ^ lo * 2 ^ (hi - lo + 1) := by
    rw [← Nat.pow_add]
    congr 1
    omega
  rw [hpow, Nat.mod_mul_right_div_self, field]

/-- Bits in front of a string do not reach the low bits of its value. -/
theorem val_append_mod (extra s : BitString) {n : Nat} (h : n ≤ s.length) :
    val (extra ++ s) % 2 ^ n = val s % 2 ^ n := by
  have hdvd : 2 ^ n ∣ val extra * 2 ^ s.length := (Nat.pow_dvd_pow 2 h).mul_left _
  rw [val_append, Nat.add_mod, Nat.mod_eq_zero_of_dvd hdvd, Nat.zero_add, Nat.mod_mod]

/-- Settles O11: a field is a quotient of the low `hi + 1` bits, and those stay. -/
theorem laterBitsDoNotChangeAField : Obligations.LaterBitsDoNotChangeAField := by
  unfold Obligations.LaterBitsDoNotChangeAField
  intro extra s hi lo hlo hhi
  rw [field_eq_mod_div _ hlo, field_eq_mod_div _ hlo, val_append_mod extra s hhi]

/-! ### The selection that an IR load leaves -/

/-- R71: only a well-formed IR_TDI record is an IR load. -/
theorem classify_eq_irLoad {r : Record} {c : Capture} (h : classify r = some (.irLoad c)) :
    ∃ p, r = .irTdi p ∧ classifyCapture p = .ok c := by
  cases r with
  | irTdi p =>
    refine ⟨p, rfl, ?_⟩
    cases hc : classifyCapture p with
    | error e => simp [classify, hc, Except.toOption] at h
    | ok c' => simpa [classify, hc, Except.toOption] using h
  | stateChange | irTdo | drTdi | drTdo | reserved => simp [classify] at h

/-- R83: an IR load runs the load of the symbol that the catalog gives, whatever the dispatch state. -/
theorem recordOperation_of_irLoad {r : Record} {c : Capture} (cfg : Config) (sel : Ls)
    (h : classify r = some (.irLoad c)) : recordOperation cfg sel r = .load (irLookup cfg c.bits).1 (evr c) := by
  obtain ⟨p, rfl, hc⟩ := classify_eq_irLoad h
  have hdec : decode cfg sel (.irTdi p) = .ok (selectIr cfg c) := by simp [decode, hc, Except.map]
  simp only [recordOperation, hdec, operation_selectIr]

/-- R84 to R91: a one-shot load owes the transition to its symbol's state, a continuous load has already made it. -/
theorem dispatchState_load_run (sym : Symbol) (rng : SampleRange) (s : State) :
    dispatchState ((Operation.load sym rng).run s) = .known (stateOf sym) := by
  rw [Operation.run_eq]
  cases h : oneShot sym <;> simp [Operation.effect, Effect.apply, recordEffect, dispatchState, h]

/-- Settles O50: the step runs the load of the looked-up symbol. -/
theorem irLoadSelectsTheNextDispatch : Obligations.IrLoadSelectsTheNextDispatch := by
  unfold Obligations.IrLoadSelectsTheNextDispatch
  intro s r rest c hin hload
  refine ⟨_, step_of_cons hin, ?_⟩
  rw [recordOperation_of_irLoad s.cfg (dispatchState s) hload, dispatchState_load_run]

/-! ### Runs with later records behind -/

/-- No operation reads or changes the waiting records. -/
theorem Operation.run_with_input (op : Operation) (s : State) (waiting : List Record) :
    op.run { s with input := waiting } = { op.run s with input := waiting } := by
  have heffect : op.effect { s with input := waiting } = op.effect s := by cases op <;> rfl
  rw [op.run_eq, op.run_eq, heffect]
  cases op.effect s with
  | none => rfl
  | some e => rfl

/-- A run is a step and the run from where it leads. -/
theorem core_run_succ {s t : State} (h : step s = .next t) (n : Nat) :
    Sys2Proof.core.run (n + 1) s = Sys2Proof.core.run n t := by
  have hcore : Sys2Proof.core.step s = .next t := h
  simp only [Host.Core.run, hcore]

/-- Settles O57, by induction on the records that wait: the oldest one runs the same operation with or without later
records behind, and an operation leaves those as they are. -/
theorem stateDependsOnEarlierRecordsOnly : Obligations.StateDependsOnEarlierRecordsOnly := by
  unfold Obligations.StateDependsOnEarlierRecordsOnly
  intro s now later hin
  induction now generalizing s with
  | nil => exact ⟨s, rfl, hin, rfl⟩
  | cons r rest ih =>
    let op := recordOperation s.cfg (dispatchState s) r
    have hinput : (op.run { s with input := rest }).input = rest := by rw [op.run_with_input]
    have hstep : step s = .next (op.run { s with input := rest }) := step_of_cons hin
    have hstepLater : step { s with input := r :: rest ++ later } =
        .next { op.run { s with input := rest } with input := rest ++ later } := by
      rw [← op.run_with_input]
      exact step_of_cons rfl
    obtain ⟨t, hrun, hempty, hrunLater⟩ := ih _ hinput
    exact ⟨t, (core_run_succ hstep _).trans hrun, hempty, (core_run_succ hstepLater _).trans hrunLater⟩

end Sys2Proof.Machine
end

section
/-! PROOFS. The encoding (`30_encoding.md`): decoder and encoder undo one another (R40, R42), and the fields of an IDCODE
word tile it (R44). -/

namespace Sys2Proof.Machine

/-! ### The record of a well-formed instruction -/

/-- The operation of the load of a symbol (R83): `selectIr` behind its lookup. -/
def loadInstr : Symbol → Capture → Instr
  | .dtmcs, c => .irDtmcs c
  | .dmi, c => .irDmi c
  | .bypass, c => if c.bits = zeroPattern then .irBypassZero c else .irBypass c
  | .idcode, c => .irIdcode c
  | .abort, c => .irAbort c
  | .dpacc, c => .irDpacc c
  | .apacc, c => .irApacc c
  | .unknown, c => .irUnknown c

theorem selectIr_eq_loadInstr (cfg : Config) (c : Capture) :
    selectIr cfg c = loadInstr (irLookup cfg c.bits).1 c := by
  unfold selectIr
  cases (irLookup cfg c.bits).1 <;> rfl

theorem loadInstr_bypass_of_zero {c : Capture} (h : c.bits = zeroPattern) : loadInstr .bypass c = .irBypassZero c :=
  if_pos h

theorem loadInstr_bypass_of_ne {c : Capture} (h : c.bits ≠ zeroPattern) : loadInstr .bypass c = .irBypass c :=
  if_neg h

/-- R83: the record of an IR capture that the catalog maps to `sym` is a load of `sym`. -/
theorem decode_irTdi_rawOf {cfg : Config} {sym : Symbol} {c : Capture} (h : irWellFormed cfg sym c = true) (sel : Ls) :
    decode cfg sel (.irTdi (rawOf c)) = .ok (loadInstr sym c) := by
  simp only [irWellFormed, Bool.and_eq_true, beq_iff_eq] at h
  obtain ⟨hwf, hsym⟩ := h
  rw [decode, classifyCapture_rawOf hwf, ← hsym, ← selectIr_eq_loadInstr]
  rfl

/-- R93: a DR record is the operation of the state in which it is dispatched. -/
theorem decode_drTdi_rawOf {sel x : Ls} {c : Capture} (h : drWellFormed sel x c = true) (cfg : Config) :
    decode cfg sel (.drTdi (rawOf c)) = .ok (selectDri x c) := by
  simp only [drWellFormed, Bool.and_eq_true, beq_iff_eq] at h
  obtain ⟨hwf, rfl⟩ := h
  rw [decode, classifyCapture_rawOf hwf]
  rfl

theorem decode_drTdo_rawOf {sel x : Ls} {c : Capture} (h : drWellFormed sel x c = true) (cfg : Config) :
    decode cfg sel (.drTdo (rawOf c)) = .ok (selectDro x c) := by
  simp only [drWellFormed, Bool.and_eq_true, beq_iff_eq] at h
  obtain ⟨hwf, rfl⟩ := h
  rw [decode, classifyCapture_rawOf hwf]
  rfl

/-- Settles O17, row by row: the rows of one format share one lemma; the two IR.BYPASS rows are told apart by the pattern,
the two ST rows by the name. -/
theorem decodeOfEncodeIsTheInstruction : Obligations.DecodeOfEncodeIsTheInstruction := by
  unfold Obligations.DecodeOfEncodeIsTheInstruction
  intro cfg sel i hwf
  cases i with
  | stReset rng => exact congrArg Except.ok (if_pos rfl)
  | stOther name rng => exact congrArg Except.ok (if_neg (bne_iff_ne.1 hwf))
  | irTdo | dropReserved => rfl
  | irBypass c =>
    obtain ⟨hload, hne⟩ := Bool.and_eq_true_iff.1 hwf
    exact (decode_irTdi_rawOf hload sel).trans (congrArg Except.ok (loadInstr_bypass_of_ne (bne_iff_ne.1 hne)))
  | irBypassZero c =>
    obtain ⟨hload, hzero⟩ := Bool.and_eq_true_iff.1 hwf
    exact (decode_irTdi_rawOf hload sel).trans (congrArg Except.ok (loadInstr_bypass_of_zero (beq_iff_eq.1 hzero)))
  | irDtmcs | irDmi | irIdcode | irAbort | irDpacc | irApacc | irUnknown => exact decode_irTdi_rawOf hwf sel
  | driIdle | driReset | driBypass | driIdcode | driAbort | driUnknown | driDtmcs | driDmi | driDpacc | driApacc
  | driUnhandled => exact decode_drTdi_rawOf hwf cfg
  | droIdle | droReset | droBypass | droIdcode | droAbort | droUnknown | droDtmcs | droDmi | droDpacc | droApacc
  | droUnhandled => exact decode_drTdo_rawOf hwf cfg

/-! ### The instruction of an accepted record -/

/-- An instruction is well formed under a configuration and a dispatch state, and `r` is its record. -/
def EncodesTo (cfg : Config) (sel : Ls) (i : Instr) (r : Record) : Prop :=
  i.wellFormed cfg sel = true ∧ encode cfg i = r

theorem selectSt_encodesTo (cfg : Config) (sel : Ls) (name : String) (rng : SampleRange) :
    EncodesTo cfg sel (selectSt cfg name rng) (.stateChange name rng) := by
  unfold selectSt
  split
  case isTrue hname => exact ⟨rfl, congrArg (Record.stateChange · rng) hname.symm⟩
  case isFalse hname => exact ⟨bne_iff_ne.2 hname, rfl⟩

theorem loadInstr_encodesTo {cfg : Config} {sym : Symbol} {c : Capture} (h : irWellFormed cfg sym c = true) (sel : Ls) :
    EncodesTo cfg sel (loadInstr sym c) (.irTdi (rawOf c)) := by
  cases sym with
  | bypass =>
    by_cases hzero : c.bits = zeroPattern
    · rw [loadInstr_bypass_of_zero hzero]
      exact ⟨Bool.and_eq_true_iff.2 ⟨h, beq_iff_eq.2 hzero⟩, rfl⟩
    · rw [loadInstr_bypass_of_ne hzero]
      exact ⟨Bool.and_eq_true_iff.2 ⟨h, bne_iff_ne.2 hzero⟩, rfl⟩
  | _ => exact ⟨h, rfl⟩

theorem selectIr_encodesTo (cfg : Config) (sel : Ls) {c : Capture} (h : c.wellFormed = true) :
    EncodesTo cfg sel (selectIr cfg c) (.irTdi (rawOf c)) := by
  rw [selectIr_eq_loadInstr]
  exact loadInstr_encodesTo (by simp [irWellFormed, h]) sel

theorem selectDri_encodesTo (cfg : Config) (sel : Ls) {c : Capture} (h : c.wellFormed = true) :
    EncodesTo cfg sel (selectDri sel c) (.drTdi (rawOf c)) := by
  have hdr : drWellFormed sel sel c = true := by simp [drWellFormed, h]
  cases sel with
  | known x => cases x <;> exact ⟨hdr, rfl⟩
  | spare k => exact ⟨hdr, rfl⟩

theorem selectDro_encodesTo (cfg : Config) (sel : Ls) {c : Capture} (h : c.wellFormed = true) :
    EncodesTo cfg sel (selectDro sel c) (.drTdo (rawOf c)) := by
  have hdr : drWellFormed sel sel c = true := by simp [drWellFormed, h]
  cases sel with
  | known x => cases x <;> exact ⟨hdr, rfl⟩
  | spare k => exact ⟨hdr, rfl⟩

/-- R72: an instruction that is selected by an accepted format-B payload is selected by a well-formed capture, of which the
payload is the spelling. -/
theorem exists_capture_of_map_eq_ok {p : RawCapture} {select : Capture → Instr} {i : Instr}
    (h : (classifyCapture p).map select = .ok i) : ∃ c, c.wellFormed = true ∧ rawOf c = p ∧ select c = i := by
  cases hc : classifyCapture p with
  | error e => simp [hc, Except.map] at h
  | ok c =>
    obtain ⟨hwf, hraw⟩ := classifyCapture_ok hc
    exact ⟨c, hwf, hraw, by simpa [hc, Except.map] using h⟩

/-- Settles O18, by the kind of the record. -/
theorem encodeOfDecodeIsTheRecord : Obligations.EncodeOfDecodeIsTheRecord := by
  unfold Obligations.EncodeOfDecodeIsTheRecord
  intro cfg sel r i hdec
  cases r with
  | stateChange name rng =>
    cases hdec
    exact selectSt_encodesTo cfg sel name rng
  | irTdo | reserved =>
    cases hdec
    exact ⟨rfl, rfl⟩
  | irTdi p =>
    obtain ⟨c, hwf, rfl, rfl⟩ := exists_capture_of_map_eq_ok hdec
    exact selectIr_encodesTo cfg sel hwf
  | drTdi p =>
    obtain ⟨c, hwf, rfl, rfl⟩ := exists_capture_of_map_eq_ok hdec
    exact selectDri_encodesTo cfg sel hwf
  | drTdo p =>
    obtain ⟨c, hwf, rfl, rfl⟩ := exists_capture_of_map_eq_ok hdec
    exact selectDro_encodesTo cfg sel hwf

/-! ### The words of the opcode table -/

/-- Settles O19: each word names a record, and the decoder computes its row from it. -/
theorem tableWordsDecodeToTheirRows : Obligations.TableWordsDecodeToTheirRows :=
  ⟨⟨_, rfl⟩, ⟨_, _, rfl⟩, ⟨_, rfl⟩, ⟨_, rfl⟩, ⟨_, rfl⟩, ⟨_, rfl⟩, ⟨_, rfl⟩, ⟨_, rfl⟩, ⟨_, rfl⟩, ⟨_, rfl⟩⟩

/-! ### The fields of a word side by side -/

/-- R65: two adjacent fields, side by side, are the field over both. -/
theorem field_eq_adjacent (s : BitString) {hi mid lo : Nat} (hlo : lo < mid) (hmid : mid ≤ hi) :
    field s hi lo = field s hi mid * 2 ^ (mid - lo) + field s (mid - 1) lo := by
  obtain ⟨k, rfl⟩ := Nat.exists_eq_add_of_lt hlo
  obtain ⟨n, rfl⟩ := Nat.exists_eq_add_of_le hmid
  have hwidth : lo + k + 1 + n - lo + 1 = (k + 1) + (n + 1) := by omega
  have hhigh : lo + k + 1 + n - (lo + k + 1) + 1 = n + 1 := by omega
  have hlow : lo + k + 1 - 1 - lo + 1 = k + 1 := by omega
  have hshift : lo + k + 1 - lo = k + 1 := by omega
  have hdiv : val s / 2 ^ (lo + k + 1) = val s / 2 ^ lo / 2 ^ (k + 1) := by
    rw [Nat.div_div_eq_div_mul, ← Nat.pow_add, Nat.add_assoc]
  simp only [field, hwidth, hhigh, hlow, hshift, hdiv]
  rw [Nat.pow_add 2 (k + 1), Nat.mod_mul, Nat.mul_comm, Nat.add_comm]

/-- A field from bit 0 up is the value of the low bits. -/
theorem field_zero (s : BitString) (hi : Nat) : field s hi 0 = val s % 2 ^ (hi + 1) := by
  simp [field]

/-- Settles O12: the word is cut at bits 28, 12 and 1, and the manufacturer at bit 8. -/
theorem idcodeFieldsTileTheWord : Obligations.IdcodeFieldsTileTheWord := by
  unfold Obligations.IdcodeFieldsTileTheWord
  intro s _
  have hversion : field s 31 0 = field s 31 28 * 2 ^ 28 + field s 27 0 := field_eq_adjacent s (by omega) (by omega)
  have hpart : field s 27 0 = field s 27 12 * 2 ^ 12 + field s 11 0 := field_eq_adjacent s (by omega) (by omega)
  have hmanufacturer : field s 11 0 = field s 11 1 * 2 ^ 1 + field s 0 0 := field_eq_adjacent s (by omega) (by omega)
  refine ⟨?_, field_eq_adjacent s (by omega) (by omega)⟩
  rw [← field_zero s 31, hversion, hpart, hmanufacturer]
  omega

end Sys2Proof.Machine
end

section
/-! PROOFS. The Register Catalog (`40_catalog.md`): the states of the symbols (R54), the two lookups (R52, R57) and the
default tables (R52, R56). -/

namespace Sys2Proof.Machine

/-! ### The state of a symbol -/

/-- The symbol whose decoder handles a state; Idle and Reset have none (R54). -/
def symbolOf : LState → Option Symbol
  | .idle => none
  | .reset => none
  | .bypass => some .bypass
  | .idcode => some .idcode
  | .abort => some .abort
  | .unknown => some .unknown
  | .dtmcs => some .dtmcs
  | .dmi => some .dmi
  | .dpacc => some .dpacc
  | .apacc => some .apacc

theorem symbolOf_stateOf (a : Symbol) : symbolOf (stateOf a) = some a := by
  cases a <;> rfl

theorem stateOf_injective : Function.Injective stateOf := by
  intro a b h
  have hsome : some a = some b := by rw [← symbolOf_stateOf a, h, symbolOf_stateOf]
  exact Option.some.inj hsome

theorem stateOf_of_symbolOf {x : LState} {a : Symbol} (h : symbolOf x = some a) : stateOf a = x := by
  cases x with
  | idle | reset => cases h
  | _ => cases h; rfl

theorem symbolOf_eq_none_iff (x : LState) : symbolOf x = none ↔ x = .idle ∨ x = .reset := by
  cases x <;> simp [symbolOf]

/-- The states that an IR pattern selects. -/
theorem exists_stateOf_eq_iff (x : LState) : (∃ a, stateOf a = x) ↔ x ≠ .idle ∧ x ≠ .reset := by
  rw [← not_or, ← symbolOf_eq_none_iff, ← ne_eq, Option.ne_none_iff_exists']
  exact exists_congr fun a => ⟨fun h => h ▸ symbolOf_stateOf a, stateOf_of_symbolOf⟩

/-- Settles O2: `symbolOf` undoes `stateOf`, and is `none` for Idle and Reset only. -/
theorem stateOfNamesTheDecoderOfEachSymbol : Obligations.StateOfNamesTheDecoderOfEachSymbol :=
  ⟨⟨rfl, rfl, rfl, rfl, rfl, rfl, rfl, rfl⟩, fun _ _ h => stateOf_injective h, exists_stateOf_eq_iff⟩

/-! ### Bit strings and bit vectors -/

/-- R6: position `k` of a string is bit `L-1-k` of its value. -/
theorem testBit_val {s : BitString} {k : Nat} (hk : k < s.length) : (val s).testBit (s.length - 1 - k) = s[k] := by
  induction s generalizing k with
  | nil => simp at hk
  | cons b s ih =>
    rw [val_cons, Nat.mul_comm, Nat.testBit_two_pow_mul_add _ (val_lt s)]
    cases k with
    | zero => cases b <;> simp
    | succ k =>
      have hk : k < s.length := by simpa using hk
      have hindex : (b :: s).length - 1 - (k + 1) = s.length - 1 - k := by simp; omega
      rw [hindex, if_pos (by omega), ih hk, List.getElem_cons_succ]

@[simp] theorem length_bitsOfVec {w : Nat} (v : BitVec w) : (bitsOfVec v).length = w := by
  simp [bitsOfVec]

/-- A string is the bits of the vector that has its value. -/
theorem bitsOfVec_ofNat_val {s : BitString} {w : Nat} (h : s.length = w) : bitsOfVec (BitVec.ofNat w (val s)) = s := by
  subst h
  refine List.ext_getElem (length_bitsOfVec _) fun k _ hk => ?_
  have hbit : s.length - 1 - k < s.length := by omega
  simp [bitsOfVec, BitVec.getLsbD_ofNat, hbit, testBit_val hk]

theorem bitsOfVec_injective {w : Nat} : Function.Injective (bitsOfVec (w := w)) := by
  intro u v h
  refine BitVec.eq_of_getLsbD_eq fun i hi => ?_
  have hget : (bitsOfVec u)[w - 1 - i]? = (bitsOfVec v)[w - 1 - i]? := by rw [h]
  have hpos : w - 1 - i < w := by omega
  have hback : w - 1 - (w - 1 - i) = i := by omega
  simpa [bitsOfVec, hpos, hback] using hget

/-! ### The IR lookup -/

/-- R52, D6: a capture spells a pattern exactly if it is the five bits of it. -/
theorem patternOf_eq_some_iff {bits : BitString} {p : Pattern} : patternOf bits = some p ↔ bits = bitsOfVec p := by
  unfold patternOf irWidth
  constructor
  · intro h
    split at h
    next hlen =>
      cases h
      exact (bitsOfVec_ofNat_val hlen).symm
    next => cases h
  · rintro rfl
    have hlen : (bitsOfVec p).length = 5 := length_bitsOfVec p
    rw [if_pos hlen, bitsOfVec_injective (bitsOfVec_ofNat_val hlen)]

theorem exists_eq_bitsOfVec {bits : BitString} (h : bits.length = 5) : ∃ p : Pattern, bits = bitsOfVec p :=
  ⟨_, (bitsOfVec_ofNat_val h).symm⟩

theorem irLookup_of_length_ne (cfg : Config) {bits : BitString} (h : bits.length ≠ 5) :
    irLookup cfg bits = (.unknown, 0) := by
  have hnone : patternOf bits = none := if_neg h
  rw [irLookup, hnone]

/-- R52: the open parameters in their order, then `IRCAT`. -/
theorem irLookup_bitsOfVec (cfg : Config) (p : Pattern) :
    irLookup cfg (bitsOfVec p) =
      if cfg.irAbort = some p then (.abort, 0)
      else if cfg.irDpacc = some p then (.dpacc, 0)
      else if cfg.irApacc = some p then (.apacc, 0)
      else (irCatAt cfg.irCat p).getD (.unknown, 0) := by
  rw [irLookup, patternOf_eq_some_iff.2 rfl]

/-- Settles O3, by the length of the capture; a pattern that `IRCAT` does not list gets the fallback (R59). -/
theorem irLookupComparesFiveBitPatterns : Obligations.IrLookupComparesFiveBitPatterns := by
  unfold Obligations.IrLookupComparesFiveBitPatterns
  intro cfg bits
  refine ⟨irLookup_of_length_ne cfg, exists_eq_bitsOfVec, ?_⟩
  rintro p rfl
  rw [irLookup_bitsOfVec, irCatAt]
  cases cfg.irCat.find? (fun e => e.pattern == p) <;> rfl

/-! ### The DMI lookup -/

theorem dmiLookup_eq_none_iff (cfg : Config) (addr : Nat) :
    dmiLookup cfg addr = none ↔ ∀ e ∈ cfg.dmiCat, e.addr ≠ addr := by
  simp [dmiLookup]

/-- R57: the first entry for the address counts. -/
theorem dmiLookup_of_first {cfg : Config} {addr : Nat} {pre post : List DmiEntry} {e : DmiEntry}
    (hcat : cfg.dmiCat = pre ++ e :: post) (hpre : ∀ f ∈ pre, f.addr ≠ addr) (haddr : e.addr = addr) :
    dmiLookup cfg addr = some (e.name, e.descr) := by
  have hnone : pre.find? (fun f => f.addr == addr) = none := by simpa using hpre
  simp [dmiLookup, hcat, List.find?_append, hnone, haddr]

/-- Settles O5. -/
theorem dmiLookupIsByNumericValue : Obligations.DmiLookupIsByNumericValue :=
  fun cfg addr => ⟨dmiLookup_eq_none_iff cfg addr, fun _ _ _ => dmiLookup_of_first⟩

/-- In a catalog with one entry for each address the order does not matter. -/
theorem dmiLookup_of_mem {cfg : Config} (hnodup : (cfg.dmiCat.map DmiEntry.addr).Nodup) {e : DmiEntry}
    (he : e ∈ cfg.dmiCat) : dmiLookup cfg e.addr = some (e.name, e.descr) := by
  obtain ⟨pre, post, hcat⟩ := List.append_of_mem he
  refine dmiLookup_of_first hcat ?_ rfl
  rw [hcat, List.map_append, List.map_cons, List.nodup_middle, List.nodup_cons] at hnodup
  intro f hf heq
  exact hnodup.1 (List.mem_append_left _ (heq ▸ List.mem_map_of_mem hf))

/-! ### The default tables -/

/-- R52: the default configuration sets no open parameter, so `IRCAT` decides. -/
theorem irLookup_defaultConfig (p : Pattern) :
    irLookup defaultConfig (bitsOfVec p) = (irCatAt defaultIrCat p).getD (.unknown, 0) :=
  irLookup_bitsOfVec defaultConfig p

/-- The default `IRCAT`, read for each of the 32 patterns. -/
theorem irCatAt_defaultIrCat (p : Pattern) :
    (irCatAt defaultIrCat p).getD (.unknown, 0) =
      if p = 0b00001 then (.idcode, 32) else if p = 0b10000 then (.dtmcs, 32) else if p = 0b10001 then (.dmi, 0)
      else if p = 0b11111 then (.bypass, 1) else if p = 0b00000 then (.bypass, 1) else (.unknown, 0) := by
  revert p
  decide

theorem defaultDmiCat_nodup : (defaultConfig.dmiCat.map DmiEntry.addr).Nodup := by
  decide

/-- Settles O4. The DMI map is the default `DMICAT`, the numbered runs written out, and no address stands in it twice. -/
theorem defaultTablesRouteTheirCodes : Obligations.DefaultTablesRouteTheirCodes := by
  unfold Obligations.DefaultTablesRouteTheirCodes
  refine ⟨fun p => (irLookup_defaultConfig p).trans (irCatAt_defaultIrCat p), ?_⟩
  intro map hmap
  have hcat : defaultConfig.dmiCat = map.map (fun e => dmiEntry e.1 e.2) := by
    rw [hmap]
    decide
  constructor
  · intro e he
    have hentry : dmiEntry e.1 e.2 ∈ defaultConfig.dmiCat := hcat ▸ List.mem_map_of_mem he
    exact dmiLookup_of_mem defaultDmiCat_nodup hentry
  · intro a ha
    rw [dmiLookup_eq_none_iff, hcat, List.forall_mem_map]
    exact ha

end Sys2Proof.Machine
end

section
/-! PROOFS. The default catalog and the states of the ARM registers (`40_catalog.md` R52, D7): no symbol of theirs is ever
loaded, so none of their states is ever entered. -/

namespace Sys2Proof.Machine

/-! ### Symbols and states that keep clear of the ARM registers -/

/-- None of the three symbols that only an open parameter selects (R52). -/
def NoArmSymbol (sym : Symbol) : Prop :=
  sym ≠ .abort ∧ sym ≠ .dpacc ∧ sym ≠ .apacc

/-- None of the states of those symbols. -/
def NoArmState (x : Ls) : Prop :=
  x ≠ .known .abort ∧ x ≠ .known .dpacc ∧ x ≠ .known .apacc

theorem riscvOnly_iff {s : State} : riscvOnly s ↔ s.cfg = defaultConfig ∧ NoArmState s.ls ∧ NoArmSymbol s.irsym := by
  simp only [riscvOnly, NoArmState, NoArmSymbol, and_assoc]

theorem noArmState_stateOf {sym : Symbol} (h : NoArmSymbol sym) : NoArmState (.known (stateOf sym)) := by
  obtain ⟨habort, hdpacc, hapacc⟩ := h
  refine ⟨fun heq => habort ?_, fun heq => hdpacc ?_, fun heq => hapacc ?_⟩ <;>
    exact stateOf_injective (Ls.known.inj heq)

theorem noArmState_idle : NoArmState (.known .idle) := by simp [NoArmState]

theorem noArmState_reset : NoArmState (.known .reset) := by simp [NoArmState]

theorem noArmState_dispatchState {s : State} (hls : NoArmState s.ls) (hsym : NoArmSymbol s.irsym) :
    NoArmState (dispatchState s) := by
  unfold dispatchState
  split
  · exact noArmState_stateOf hsym
  · exact hls

theorem noArmState_lsAfterData {sel : Ls} (h : NoArmState sel) (x : LState) (d : Dir) :
    NoArmState (lsAfterData sel x d) := by
  unfold lsAfterData
  split
  · exact noArmState_idle
  · exact h

/-! ### What the default catalog loads -/

/-- No row of the default `IRCAT` names one of the three symbols, and the fallback is UNKNOWN. -/
theorem noArmSymbol_irLookup_defaultConfig (bits : BitString) : NoArmSymbol (irLookup defaultConfig bits).1 := by
  by_cases hlen : bits.length = 5
  · obtain ⟨p, rfl⟩ := exists_eq_bitsOfVec hlen
    rw [irLookup_defaultConfig, irCatAt_defaultIrCat]
    split_ifs <;> simp [NoArmSymbol]
  · rw [irLookup_of_length_ne _ hlen]
    simp [NoArmSymbol]

theorem dataOperation_ne_load {sel : Ls} {d : Dir} {c : Capture} {sym : Symbol} {rng : SampleRange} :
    dataOperation sel d c ≠ .load sym rng := by
  cases sel <;> nofun

/-- A format-B record that runs a load was accepted, and is a load by its selection. -/
theorem load_of_capture {cfg : Config} {sel : Ls} {r : Record} {p : RawCapture} {select : Capture → Instr} {sym : Symbol}
    {rng : SampleRange} (hdec : decode cfg sel r = (classifyCapture p).map select)
    (hload : recordOperation cfg sel r = .load sym rng) : ∃ c, operation (select c) = .load sym rng := by
  unfold recordOperation at hload
  rw [hdec] at hload
  cases hc : classifyCapture p with
  | error e => simp [hc, Except.map] at hload
  | ok c => exact ⟨c, by simpa [hc, Except.map] using hload⟩

/-- R83: a record loads a symbol only if the catalog gives it for some capture. -/
theorem exists_irLookup_of_load {cfg : Config} {sel : Ls} {r : Record} {sym : Symbol} {rng : SampleRange}
    (hload : recordOperation cfg sel r = .load sym rng) : ∃ bits, (irLookup cfg bits).1 = sym := by
  cases r with
  | stateChange name rng' =>
    change operation (selectSt cfg name rng') = _ at hload
    unfold selectSt at hload
    split at hload <;> cases hload
  | irTdi p =>
    obtain ⟨c, hc⟩ := load_of_capture rfl hload
    rw [operation_selectIr] at hc
    exact ⟨c.bits, (Operation.load.inj hc).1⟩
  | drTdi p =>
    obtain ⟨c, hc⟩ := load_of_capture rfl hload
    rw [operation_selectDri] at hc
    exact absurd hc dataOperation_ne_load
  | drTdo p =>
    obtain ⟨c, hc⟩ := load_of_capture rfl hload
    rw [operation_selectDro] at hc
    exact absurd hc dataOperation_ne_load
  | irTdo | reserved => cases hload

/-! ### The invariant -/

/-- The effect of an operation names no state but Idle, Reset, `ls`, and those of the owed symbol and of the loaded one. -/
theorem Operation.effect_noArm {op : Operation} {s : State} {e : Effect} (hls : NoArmState s.ls)
    (hsym : NoArmSymbol s.irsym) (hload : ∀ sym rng, op = .load sym rng → NoArmSymbol sym)
    (he : op.effect s = some e) : NoArmState e.final ∧ NoArmSymbol e.irsym := by
  have hsel := noArmState_dispatchState hls hsym
  cases op with
  | drop => cases he
  | tapReset rng =>
    cases he
    exact ⟨noArmState_reset, hsym⟩
  | tapOther rng =>
    cases he
    exact ⟨hls, hsym⟩
  | load sym rng =>
    cases he
    have hloaded := hload sym rng rfl
    refine ⟨?_, hloaded⟩
    dsimp only
    split
    · exact hls
    · exact noArmState_stateOf hloaded
  | data x d c =>
    cases he
    exact ⟨noArmState_lsAfterData hsel x d, hsym⟩
  | unhandled k c =>
    cases he
    exact ⟨hsel, hsym⟩

theorem Operation.run_riscvOnly {op : Operation} {s : State} (hs : riscvOnly s)
    (hload : ∀ sym rng, op = .load sym rng → NoArmSymbol sym) : riscvOnly (op.run s) := by
  obtain ⟨hcfg, hls, hsym⟩ := riscvOnly_iff.1 hs
  rw [op.run_eq]
  cases he : op.effect s with
  | none => exact hs
  | some e => exact riscvOnly_iff.2 ⟨hcfg, effect_noArm hls hsym hload he⟩

theorem riscvOnly_step {s t : State} (hs : riscvOnly s) (hstep : step s = .next t) : riscvOnly t := by
  obtain ⟨-, rfl⟩ | ⟨r, rest, -, rfl⟩ := step_eq_next hstep
  · exact hs
  · refine Operation.run_riscvOnly (s := { s with input := rest }) hs fun sym rng hload => ?_
    rw [(riscvOnly_iff.1 hs).1] at hload
    obtain ⟨bits, rfl⟩ := exists_irLookup_of_load hload
    exact noArmSymbol_irLookup_defaultConfig bits

theorem riscvOnly_reset : riscvOnly State.reset :=
  riscvOnly_iff.2 ⟨rfl, noArmState_idle, by simp [NoArmSymbol, State.reset]⟩

/-- Settles O60: reset starts in Idle with UNKNOWN, and a step enters only states of symbols that the catalog gave. -/
theorem defaultCatalogNeverSelectsTheArmRegisters : Obligations.DefaultCatalogNeverSelectsTheArmRegisters :=
  ⟨riscvOnly_reset, fun _ _ => riscvOnly_step⟩

end Sys2Proof.Machine
end

section
/-! PROOFS. The Bitfield Primitives (`41_bitfield.md`): slices and their errors (R60 to R62), numbers and their zero test
(R63, R64), fields as slices (R65, R70), and the hexadecimal digits of a number (R66, R67). -/

namespace Sys2Proof.Machine

/-! ### Slices -/

/-- Between ordered positions inside the string, `slice` is the middle piece. -/
theorem slice_natCast {s : BitString} {a b : Nat} (hab : a ≤ b) (hb : b ≤ s.length) :
    slice s a b = .ok ((s.take b).drop a) := by
  rw [slice_eq (if_pos (Int.natCast_nonneg a)) (if_pos (Int.natCast_nonneg b)), if_neg (by omega), if_neg (by omega)]
  rfl

theorem length_drop_take {s : BitString} {a b : Nat} (hb : b ≤ s.length) : ((s.take b).drop a).length = b - a := by
  rw [List.length_drop, List.length_take_of_le hb]

/-- The positions of a middle piece, counted in the string that it is cut from. -/
theorem getElem?_drop_take {s : BitString} {a b k : Nat} (hk : k < b - a) : ((s.take b).drop a)[k]? = s[a + k]? := by
  rw [List.getElem?_drop, List.getElem?_take_of_lt (by omega)]

/-- Settles O6: the two tests in their order (D31), then the positions of the middle piece. -/
theorem sliceTakesThePositionsOrFails : Obligations.SliceTakesThePositionsOrFails := by
  unfold Obligations.SliceTakesThePositionsOrFails
  intro s start stop a b ha hb
  rw [slice_eq ha.symm hb.symm]
  refine ⟨fun hout => if_pos (by omega), fun hin => ?_⟩
  rw [if_neg (by omega)]
  refine ⟨fun hba => if_pos hba, fun hab => ?_⟩
  rw [if_neg (by omega)]
  have hlen : ((s.take b.toNat).drop a.toNat).length = b.toNat - a.toNat := length_drop_take (by omega)
  refine ⟨_, rfl, by omega, fun k hk => getElem?_drop_take (by omega)⟩

/-! ### Numbers -/

/-- R6: the recursion of `val` adds up the weights of the positions. -/
theorem val_eq_sum (x : BitString) :
    val x = ((List.range x.length).map (fun k => (x.getD k false).toNat * 2 ^ (x.length - 1 - k))).sum := by
  induction x with
  | nil => rfl
  | cons b x ih =>
    simp [val_cons, ih, List.range_succ_eq_map, Function.comp_def, Nat.sub_sub, Nat.add_comm]

/-- Settles O7: a non-empty string has the number `val`, and a bit 0 in front adds nothing to it. -/
theorem toUnsignedIntIsBigEndian : Obligations.ToUnsignedIntIsBigEndian := by
  unfold Obligations.ToUnsignedIntIsBigEndian
  refine ⟨rfl, fun x hx => ⟨val x, toUnsignedInt_of_ne_nil hx, val_eq_sum x, val_lt x, ?_⟩⟩
  have hlead : val (false :: x) = val x := by simp [val_cons]
  rw [toUnsignedInt_of_ne_nil (List.cons_ne_nil _ _), hlead]

/-- R64: the test reads every position. -/
theorem isAllZero_iff_getElem? (x : BitString) :
    isAllZero x = true ↔ ∀ k, k < x.length → x[k]? = some false := by
  simp only [isAllZero, List.all_eq_true, List.forall_mem_iff_getElem, Bool.not_eq_true']
  exact forall₂_congr fun k hk => by simp [hk]

/-- A number is 0 exactly if no bit has a weight in it. -/
theorem isAllZero_iff_val (x : BitString) : isAllZero x = true ↔ val x = 0 := by
  induction x with
  | nil => simp [isAllZero]
  | cons b x ih =>
    have hcons : isAllZero (b :: x) = (!b && isAllZero x) := rfl
    rw [hcons, val_cons]
    cases b <;> simp [ih]

/-- Settles O8: both readings of the test, by position and by number. -/
theorem isAllZeroTestsEveryBit : Obligations.IsAllZeroTestsEveryBit := by
  unfold Obligations.IsAllZeroTestsEveryBit
  refine fun x => ⟨isAllZero_iff_getElem? x, fun hx => ?_⟩
  rw [isAllZero_iff_val, toUnsignedInt_of_ne_nil hx, Except.ok.injEq]

/-! ### Fields -/

/-- R65: dropping the low bits and then the high ones is shifting and then reducing. -/
theorem val_drop_take_eq_field {s : BitString} {hi lo : Nat} (hlo : lo ≤ hi) (hhi : hi < s.length) :
    val ((s.take (s.length - lo)).drop (s.length - 1 - hi)) = field s hi lo := by
  have hshift : s.length - (s.length - lo) = lo := by omega
  have hwidth : s.length - lo - (s.length - 1 - hi) = hi - lo + 1 := by omega
  rw [val_drop, List.length_take_of_le (by omega), val_take, hshift, hwidth, field]

/-- Settles O9: the slice of R65 is inside the string and has the field as its number. -/
theorem fieldReadsItsSlice : Obligations.FieldReadsItsSlice := by
  unfold Obligations.FieldReadsItsSlice
  intro s hi lo hlo hhi
  have hstart : (s.length : Int) - 1 - hi = (s.length - 1 - hi : Nat) := by omega
  have hstop : (s.length : Int) - lo = (s.length - lo : Nat) := by omega
  have hlen : ((s.take (s.length - lo)).drop (s.length - 1 - hi)).length = hi - lo + 1 := by
    rw [length_drop_take (by omega)]
    omega
  refine ⟨_, by rw [hstart, hstop, slice_natCast (by omega) (by omega)], hlen, ?_⟩
  rw [toUnsignedInt_of_ne_nil (List.ne_nil_of_length_eq_add_one hlen), val_drop_take_eq_field hlo hhi]

/-- R65: a middle piece depends on its own positions alone. -/
theorem drop_take_congr {s s' : BitString} {a b : Nat} (h : ∀ k, a ≤ k → k < b → s[k]? = s'[k]?) :
    (s.take b).drop a = (s'.take b).drop a := by
  refine List.ext_getElem? fun k => ?_
  by_cases hk : k < b - a
  · rw [getElem?_drop_take hk, getElem?_drop_take hk, h (a + k) (by omega) (by omega)]
  · rw [List.getElem?_eq_none (by simp; omega), List.getElem?_eq_none (by simp; omega)]

/-- Settles O10: equal pieces for the slices, and the cut of `field_eq_adjacent` for the fields. -/
theorem slicingIsLosslessAndFieldsConcatenate : Obligations.SlicingIsLosslessAndFieldsConcatenate := by
  unfold Obligations.SlicingIsLosslessAndFieldsConcatenate
  refine ⟨fun s s' a b hlen hab hb h => ?_, fun s hi mid lo hlo hmid _ => field_eq_adjacent s hlo hmid⟩
  rw [slice_natCast hab hb, slice_natCast hab (hlen ▸ hb), drop_take_congr h]

/-! ### Hexadecimal digits -/

/-- The lower-case hexadecimal digits (R66). -/
def IsHexDigit (ch : Char) : Prop :=
  ('0' ≤ ch ∧ ch ≤ '9') ∨ ('a' ≤ ch ∧ ch ≤ 'f')

theorem isHexDigit_hexDigit {d : Nat} (hd : d < 16) : IsHexDigit (hexDigit d) := by
  unfold IsHexDigit
  decide +revert

@[simp] theorem hexDigitValue_hexDigit {d : Nat} (hd : d < 16) : hexDigitValue (hexDigit d) = d := by
  decide +revert

theorem hexDigit_ne_zero {d : Nat} (hd : d < 16) (hpos : d ≠ 0) : hexDigit d ≠ '0' := by
  decide +revert

theorem hexValue_append_singleton (cs : List Char) (ch : Char) :
    hexValue (cs ++ [ch]) = 16 * hexValue cs + hexDigitValue ch := by
  simp [hexValue]

theorem hexDigits_of_lt (fuel : Nat) {n : Nat} (hn : n < 16) : hexDigits (fuel + 1) n = [hexDigit n] := by
  simp [hexDigits, hn, Nat.mod_eq_of_lt hn]

theorem hexDigits_of_le (fuel : Nat) {n : Nat} (hn : 16 ≤ n) :
    hexDigits (fuel + 1) n = hexDigits fuel (n / 16) ++ [hexDigit (n % 16)] := by
  simp [hexDigits, Nat.not_lt.2 hn]

/-- `cs` is how R66 and D27 write `n`: the digits of `n`, at least one, and no leading zero for a positive `n`. -/
structure Spells (cs : List Char) (n : Nat) : Prop where
  nonempty : cs ≠ []
  value : hexValue cs = n
  digits : ∀ ch ∈ cs, IsHexDigit ch
  minimal : n ≠ 0 → cs.head? ≠ some '0'

theorem spells_hexDigit {d : Nat} (hd : d < 16) : Spells [hexDigit d] d where
  nonempty := List.cons_ne_nil _ _
  value := by simp [hexValue, hd]
  digits := by simpa using isHexDigit_hexDigit hd
  minimal hpos := by simpa using hexDigit_ne_zero hd hpos

/-- One more digit at the end: the first digit stays, and the number in front is not 0. -/
theorem Spells.append_hexDigit {cs : List Char} {n : Nat} (h : Spells cs (n / 16)) (hn : 16 ≤ n) :
    Spells (cs ++ [hexDigit (n % 16)]) n where
  nonempty := by simp
  value := by
    rw [hexValue_append_singleton, h.value, hexDigitValue_hexDigit (Nat.mod_lt n (by decide)), Nat.div_add_mod]
  digits ch hch := by
    obtain hch | rfl := List.mem_append.1 hch |>.imp_right List.mem_singleton.1
    · exact h.digits ch hch
    · exact isHexDigit_hexDigit (Nat.mod_lt n (by decide))
  minimal _ := by
    rw [List.head?_append_of_ne_nil _ h.nonempty]
    exact h.minimal (by omega)

/-- The fuel of `hexbare` never runs out: it exceeds the number, and each digit divides the number by 16. -/
theorem spells_hexDigits {fuel n : Nat} (hfuel : n < fuel) : Spells (hexDigits fuel n) n := by
  induction fuel generalizing n with
  | zero => omega
  | succ fuel ih =>
    obtain hn | hn := Nat.lt_or_ge n 16
    · rw [hexDigits_of_lt fuel hn]
      exact spells_hexDigit hn
    · rw [hexDigits_of_le fuel hn]
      exact (ih (by omega)).append_hexDigit hn

/-- Settles O13: the digits of `hexbare` are those of `hexDigits`, with fuel `n + 1`. -/
theorem hexDigitsSpellTheNumber : Obligations.HexDigitsSpellTheNumber := by
  unfold Obligations.HexDigitsSpellTheNumber
  intro n
  have h := spells_hexDigits (Nat.lt_succ_self n)
  refine ⟨hexDigits (n + 1) n, rfl, rfl, h.nonempty, h.value, h.digits, h.minimal, ?_⟩
  rintro rfl
  rfl

end Sys2Proof.Machine
end

section
/-! PROOFS. The Event Classifier (`42_classifier.md`): which records have an event (R72, R77), the one reversal of the
sample ranges (R73), and the ranges that the fields of a decoder body cover (R120). -/

namespace Sys2Proof.Machine

/-! ### The payloads that are accepted -/

/-- R5: a string of the characters `0` and `1` spells bits. -/
theorem exists_map_bitChar_eq {cs : List Char} (h : ∀ ch ∈ cs, ch = '0' ∨ ch = '1') :
    ∃ bits : BitString, bits.map bitChar = cs := by
  have hchar : ∀ ch ∈ cs, bitChar (ch == '1') = ch := by
    intro ch hch
    obtain rfl | rfl := h ch hch <;> rfl
  refine ⟨cs.map (· == '1'), ?_⟩
  rw [List.map_map]
  exact (List.map_congr_left (g := id) hchar).trans (List.map_id cs)

/-- R72: the well-formed payloads are the spellings of the well-formed captures. -/
theorem rawOk_iff_exists_rawOf (p : RawCapture) : rawOk p = true ↔ ∃ c, c.wellFormed = true ∧ rawOf c = p := by
  constructor
  · intro h
    obtain ⟨chars, ranges⟩ := p
    simp only [rawOk, Bool.and_eq_true, List.all_eq_true, Bool.or_eq_true, beq_iff_eq] at h
    obtain ⟨⟨hne, hlen⟩, hbits⟩ := h
    obtain ⟨bits, rfl⟩ := exists_map_bitChar_eq hbits
    exact ⟨⟨bits, ranges.reverse⟩, by simpa [Capture.wellFormed, hlen] using hne, by simp [rawOf]⟩
  · rintro ⟨c, hwf, rfl⟩
    have hchar (b : Bool) : bitChar b = '0' ∨ bitChar b = '1' := by cases b <;> simp [bitChar]
    simpa [rawOk, rawOf, Capture.wellFormed, hchar] using hwf

/-- R72: the classifier rejects a payload exactly if it is malformed. -/
theorem classifyCapture_toOption_eq_none_iff (p : RawCapture) :
    (classifyCapture p).toOption = none ↔ rawOk p = false := by
  cases hc : classifyCapture p with
  | ok c =>
    have hok : rawOk p = true := (rawOk_iff_exists_rawOf p).2 ⟨c, classifyCapture_ok hc⟩
    simp [Except.toOption, hok]
  | error e =>
    have hbad : rawOk p ≠ true := by
      intro hok
      obtain ⟨c, hwf, rfl⟩ := (rawOk_iff_exists_rawOf p).1 hok
      simp [classifyCapture_rawOf hwf] at hc
    simpa [Except.toOption] using hbad

/-! ### Records without an event -/

/-- R72, R77: a record without an event runs no operation, in any dispatch state. -/
theorem recordOperation_of_classify_eq_none {r : Record} (cfg : Config) (sel : Ls) (h : classify r = none) :
    recordOperation cfg sel r = .drop := by
  cases r with
  | stateChange name rng => simp [classify] at h
  | irTdo p | reserved k p => rfl
  | irTdi p | drTdi p | drTdo p =>
    cases hc : classifyCapture p with
    | ok c => simp [classify, hc, Except.toOption] at h
    | error e => simp [recordOperation, decode, hc, Except.map]

/-- Settles O15: an event needs an accepted payload, and without an event the step runs the operation that drops. -/
theorem recordsWithoutAnEventAreDropped : Obligations.RecordsWithoutAnEventAreDropped := by
  unfold Obligations.RecordsWithoutAnEventAreDropped
  refine ⟨fun p => ?events, fun _ _ => rfl, ?step⟩
  case events =>
    have hnone {f : Capture → TapEvent} : (classifyCapture p).toOption.map f = none ↔ rawOk p = false :=
      Option.map_eq_none_iff.trans (classifyCapture_toOption_eq_none_iff p)
    exact ⟨hnone, hnone, hnone, rfl, fun _ => rfl⟩
  case step =>
    intro s r rest hin hr
    rw [step_of_cons hin, recordOperation_of_classify_eq_none _ _ hr]
    rfl

/-- Settles O44: the operation of both instructions is the one that drops. -/
theorem droppedRecordsChangeNothing : Obligations.DroppedRecordsChangeNothing :=
  fun p k s => ⟨exec_eq_run (.irTdo p) s, exec_eq_run (.dropReserved k p) s⟩

/-! ### The ranges of the fields -/

/-- The annotation with the event range `r`: a field keeps the range of its own bits (R119, R120). -/
def Emission.withEvent (r : SampleRange) (e : Emission) : Emission :=
  match e.payload with
  | .field _ _ _ _ _ _ => e
  | _ => { e with rng := r }

/-- A decoder body uses the event range for the annotations that are no fields, and for nothing else. -/
theorem decoderBody_withEvent (x : LState) (d : Dir) (c : Capture) (r r' : SampleRange) :
    decoderBody x d c r' = (decoderBody x d c r).map (List.map (Emission.withEvent r')) := by
  cases x with
  | idle | reset => rfl
  | bypass | unknown => cases d <;> rfl
  | idcode =>
    cases d with
    | inbound => rfl
    | outbound =>
      simp only [decoderBody, bodyIdcode]
      split <;> rfl
  | abort =>
    cases d with
    | inbound =>
      simp only [decoderBody, bodyAbort]
      split
      · rfl
      · split <;> rfl
    | outbound => rfl
  | dtmcs => cases d <;> (simp only [decoderBody, bodyDtmcsIn, bodyDtmcsOut]; split <;> rfl)
  | dmi =>
    simp only [decoderBody, bodyDmi]
    split
    · rfl
    · cases toUnsignedInt c.bits <;> rfl
  | dpacc | apacc =>
    cases d <;>
    · simp only [decoderBody, bodyAccessIn, bodyAccessOut]
      split
      · rfl
      · split <;> rfl

/-- A field annotation that is a note of the body under every event range covers its own bits: a note over the event
range would have to move with it. -/
theorem BodyNote.field_of_forall {c : Capture} {e : Emission} (h : ∀ r, BodyNote c r e)
    {reg : Symbol} {d : Dir} {label : FieldLabel} {value hi lo : Nat}
    (hp : e.payload = .field reg d label value hi lo) :
    lo ≤ hi ∧ hi < c.bits.length ∧ e.rng = fieldRange c hi lo := by
  obtain ⟨r, hr⟩ : ∃ r : SampleRange, r ≠ e.rng :=
    ⟨⟨e.rng.ss + 1, e.rng.es⟩, fun heq => Nat.succ_ne_self _ (congrArg SampleRange.ss heq)⟩
  cases h r with
  | field hlo hhi =>
    cases hp
    exact ⟨hlo, hhi, rfl⟩
  | event => exact absurd rfl hr

/-- R120: in a decode that succeeds, a field is over bits of the received capture, and over the range of those bits. -/
theorem tryDecode_field {cfg : Config} {x : LState} {d : Dir} {c : Capture} {es : List Emission}
    (h : tryDecode cfg x d c = .ok es) {e : Emission} (he : e ∈ es) {reg : Symbol} {dir : Dir} {label : FieldLabel}
    {value hi lo : Nat} (hp : e.payload = .field reg dir label value hi lo) :
    lo ≤ hi ∧ hi < c.bits.length ∧ e.rng = fieldRange c hi lo := by
  unfold tryDecode at h
  split at h
  · cases h
  next v hv =>
    refine BodyNote.field_of_forall (fun r => ?_) hp
    have hes : decoderBody x d v r = .ok (es.map (Emission.withEvent r)) := by
      rw [decoderBody_withEvent x d v (evr c) r, h]
      rfl
    have hsame : e.withEvent r = e := by simp [Emission.withEvent, hp]
    have hnote := decoderBody_notes hes _ (List.mem_map_of_mem he)
    rw [hsame] at hnote
    exact hnote.of_stripLead hv

/-! ### The one reversal -/

/-- R73: `sr[i] = ranges[L-1-i]`. -/
theorem getElem?_sr_eq_ranges_rawOf {c : Capture} (hlen : c.sr.length = c.bits.length) {i : Nat}
    (hi : i < c.bits.length) : c.sr[i]? = (rawOf c).ranges[c.bits.length - 1 - i]? := by
  rw [rawOf, List.getElem?_reverse (by omega)]
  congr 1
  omega

theorem getElem?_eq_some_srAt {rs : List SampleRange} {i : Nat} (hi : i < rs.length) : rs[i]? = some (srAt rs i) := by
  simp [srAt, hi]

/-- Settles O14: the payload is the spelling of one capture, whose ranges it lists in reverse; classifier and decoder
pass that capture on, and a field of a body reads its ranges at its own bits. -/
theorem classifierReversesTheRangesOnce : Obligations.ClassifierReversesTheRangesOnce := by
  unfold Obligations.ClassifierReversesTheRangesOnce
  intro p hp
  obtain ⟨c, hwf, rfl⟩ := (rawOk_iff_exists_rawOf p).1 hp
  have hc : classifyCapture (rawOf c) = .ok c := classifyCapture_rawOf hwf
  have hchars : (rawOf c).chars.length = c.bits.length := List.length_map ..
  have hlen : c.sr.length = c.bits.length := by
    simp only [Capture.wellFormed, Bool.and_eq_true, beq_iff_eq] at hwf
    exact hwf.2
  rw [hchars]
  have hevent (f : Capture → TapEvent) : (classifyCapture (rawOf c)).toOption.map f = some (f c) := by rw [hc]; rfl
  have hselect (f : Capture → Instr) : (classifyCapture (rawOf c)).map f = .ok (f c) := by rw [hc]; rfl
  refine ⟨c, hevent _, hevent _, hevent _, rfl, hlen, fun i hi => getElem?_sr_eq_ranges_rawOf hlen hi,
    fun cfg sel => ⟨hselect _, hselect _, hselect _⟩, ?fields⟩
  case fields =>
    intro cfg x d es hes e he reg dir label value hi lo hpay
    obtain ⟨hlo, hhi, hrng⟩ := tryDecode_field hes he hpay
    have hrange {i : Nat} (hi : i < c.bits.length) :
        (rawOf c).ranges[c.bits.length - 1 - i]? = some (srAt c.sr i) :=
      (getElem?_sr_eq_ranges_rawOf hlen hi).symm.trans (getElem?_eq_some_srAt (hlen ▸ hi))
    exact ⟨hlo, hhi, _, _, hrange (by omega), hrange hhi, hrng⟩

end Sys2Proof.Machine
end

section
/-! PROOFS. The effects of the tracker's instructions (`43_tracker.md`): TAP-state changes (R81, R82), IR loads (R83 to R91)
and DR records (R92 to R95), each read off its operation; and the stripping of lead bits (R93). -/

namespace Sys2Proof.Machine

/-! ### TAP-state changes and IR loads -/

/-- Settles O36: the closed forms of the two TAP operations. -/
theorem stateChangeEffect : Obligations.StateChangeEffect :=
  fun _ rng s => ⟨congrArg _ (setls_reset_disarm_eq rng s), congrArg _ (emitState_eq_recordEffect rng s)⟩

/-- Settles O37: both instructions are continuous loads, and `stateOf` names their states (R54). -/
theorem continuousLoadEffect : Obligations.ContinuousLoadEffect :=
  fun c s => ⟨congrArg _ (loadContinuous_eq .dtmcs (evr c) s), congrArg _ (loadContinuous_eq .dmi (evr c) s)⟩

/-- Settles O38: the seven instructions are one-shot loads. -/
theorem oneShotLoadEffect : Obligations.OneShotLoadEffect := by
  unfold Obligations.OneShotLoadEffect
  intro c s
  have hload (sym : Symbol) : (.next (loadOneShot sym (evr c) s) : Host.Outcome State Fault Refusal) =
      .next { recordEffect s (evr c) s.ls s.ls [] with armed := true, irsym := sym } :=
    congrArg _ (loadOneShot_eq sym (evr c) s)
  exact ⟨hload .bypass, hload .bypass, hload .idcode, hload .abort, hload .dpacc, hload .apacc, hload .unknown⟩

/-! ### DR records in their dispatch state -/

section

variable {i : Instr} {x : LState} {d : Dir} {c : Capture} {s : State}

/-- A DR record that is dispatched in the state that its instruction names. -/
theorem exec_of_data (hop : operation i = .data x d c) (hsel : dispatchState s = .known x) :
    exec i s = .next { recordEffect s (evr c) (.known x) (lsAfterData (.known x) x d) (dataBody s.cfg x d c) with
      armed := false } := by
  rw [exec_eq_run, hop, Operation.run, dispatchDr_eq, hsel]

/-- R92 to R94: a decode that completes goes back to Idle, whether it succeeds or degrades (D29). -/
theorem exec_of_completes (hop : operation i = .data x d c) (hexp : expects x d = true) (hdone : completes x d = true)
    (hsel : dispatchState s = .known x) :
    exec i s = .next { recordEffect s (evr c) (.known x) (.known .idle) (bodyOrDegraded s.cfg x d c) with
      armed := false } := by
  simp [exec_of_data hop hsel, lsAfterData, dataBody, hexp, hdone]

/-- R92 to R94: a decode that does not complete stays in the dispatch state. -/
theorem exec_of_continues (hop : operation i = .data x d c) (hexp : expects x d = true) (hdone : completes x d = false)
    (hsel : dispatchState s = .known x) :
    exec i s = .next { recordEffect s (evr c) (.known x) (.known x) (bodyOrDegraded s.cfg x d c) with
      armed := false } := by
  have hreset : x ≠ .reset := by
    rintro rfl
    cases hexp
  simp [exec_of_data hop hsel, lsAfterData, dataBody, hexp, hdone, hreset]

/-- R93, D13: a direction that the dispatch state does not expect takes the owed transition only. -/
theorem exec_of_not_expects (hop : operation i = .data x d c) (hexp : expects x d = false) (hreset : x ≠ .reset)
    (hsel : dispatchState s = .known x) :
    exec i s = .next { recordEffect s (evr c) (.known x) (.known x) [] with armed := false } := by
  simp [exec_of_data hop hsel, lsAfterData, dataBody, hexp, hreset]

/-- R95: a spare code keeps `ls` and emits its one diagnostic. -/
theorem exec_of_unhandled {k : Fin 6} (hop : operation i = .unhandled k c) (hsel : dispatchState s = .spare k) :
    exec i s = .next
      { recordEffect s (evr c) (.spare k) (.spare k) [⟨evr c, .diagnostic, .unhandled k⟩] with armed := false } := by
  rw [exec_eq_run, hop, Operation.run, dispatchUnhandled_eq, hsel]

end

/-- Settles O39: the six rows that the table of R94 completes. -/
theorem completingDecodeEffect : Obligations.CompletingDecodeEffect :=
  fun _ _ => ⟨exec_of_completes rfl rfl rfl, exec_of_completes rfl rfl rfl, exec_of_completes rfl rfl rfl,
    exec_of_completes rfl rfl rfl, exec_of_completes rfl rfl rfl, exec_of_completes rfl rfl rfl⟩

/-- Settles O40: the six rows that are expected and that the table of R94 does not complete. -/
theorem continuingDecodeEffect : Obligations.ContinuingDecodeEffect :=
  fun _ _ => ⟨exec_of_continues rfl rfl rfl, exec_of_continues rfl rfl rfl,
    fun hdtmcs => ⟨exec_of_continues rfl rfl rfl hdtmcs, exec_of_continues rfl rfl rfl hdtmcs⟩,
    fun hdmi => ⟨exec_of_continues rfl rfl rfl hdmi, exec_of_continues rfl rfl rfl hdmi⟩⟩

/-- Settles O41: the four rows of an unexpected direction, and the two of Idle, which expects none. -/
theorem unexpectedDirectionIsIgnored : Obligations.UnexpectedDirectionIsIgnored :=
  fun _ _ => ⟨exec_of_not_expects rfl rfl nofun, exec_of_not_expects rfl rfl nofun, exec_of_not_expects rfl rfl nofun,
    exec_of_not_expects rfl rfl nofun,
    fun hidle => ⟨exec_of_not_expects rfl rfl nofun hidle, exec_of_not_expects rfl rfl nofun hidle⟩⟩

/-- Settles O43: both directions are the one operation of R95. -/
theorem unhandledStateEmitsOneDiagnostic : Obligations.UnhandledStateEmitsOneDiagnostic :=
  fun _ _ _ hsel => ⟨exec_of_unhandled rfl hsel, exec_of_unhandled rfl hsel⟩

/-! ### Lead bits -/

/-- R93: a capture shorter than `LEAD_STRIP` never reaches the body. -/
theorem tryDecode_of_length_lt {cfg : Config} {x : LState} {c : Capture} (h : c.bits.length < cfg.leadStrip.get x)
    (d : Dir) : tryDecode cfg x d c = .error .outOfRange := by
  have hstrip : stripLead (cfg.leadStrip.get x) c = .error .outOfRange := if_pos h
  rw [tryDecode, hstrip]

/-- R93, D36: the body reads the stripped capture, and the event range of the one received. -/
theorem tryDecode_of_le_length {cfg : Config} {x : LState} {c : Capture} (h : cfg.leadStrip.get x ≤ c.bits.length)
    (d : Dir) :
    tryDecode cfg x d c =
      decoderBody x d ⟨c.bits.drop (cfg.leadStrip.get x), c.sr.take (c.bits.length - cfg.leadStrip.get x)⟩ (evr c) := by
  have hstrip : stripLead (cfg.leadStrip.get x) c =
      .ok ⟨c.bits.drop (cfg.leadStrip.get x), c.sr.take (c.bits.length - cfg.leadStrip.get x)⟩ := if_neg (Nat.not_lt.2 h)
  rw [tryDecode, hstrip]

/-- R7: ranges that are dropped at the top end leave the others at their value bits. -/
theorem srAt_take_of_lt (sr : List SampleRange) {i n : Nat} (hi : i < n) : srAt (sr.take n) i = srAt sr i := by
  simp [srAt, List.getElem?_take_of_lt hi]

/-- Settles O33: the body reads the low bits of the capture, and their ranges. -/
theorem leadBitsAreStrippedBeforeDecoding : Obligations.LeadBitsAreStrippedBeforeDecoding := by
  unfold Obligations.LeadBitsAreStrippedBeforeDecoding
  rintro cfg x d c k rfl
  exact ⟨fun hshort => tryDecode_of_length_lt hshort d, fun hlong =>
    ⟨_, tryDecode_of_le_length hlong d, List.length_drop, val_drop _ _, fun _ hi => srAt_take_of_lt c.sr hi⟩⟩

end Sys2Proof.Machine
end

section
/-! PROOFS. The Register Decoders (`44_decoders.md`): the fields of each layout by their values, the annotations of each body
and its errors, the texts of the summaries, and where a DR record leaves `ls` (R94, R98). -/

namespace Sys2Proof.Machine

/-! ### Where a DR record leaves the state -/

section

variable {i : Instr} {x : LState} {d : Dir} {c : Capture} {s : State}

/-- R98, D14: in Reset a DR record of either direction goes back to Idle, and nothing is decoded. -/
theorem exec_of_reset (hop : operation i = .data .reset d c) (hsel : dispatchState s = .known .reset) :
    exec i s = .next { recordEffect s (evr c) (.known .reset) (.known .idle) [] with armed := false } := by
  simp [exec_of_data hop hsel, lsAfterData, dataBody, expects]

/-- R94, D29: a decode that completes leaves Idle, degraded or not. -/
theorem exec_ls_of_completes (hop : operation i = .data x d c) (hexp : expects x d = true)
    (hdone : completes x d = true) (hsel : dispatchState s = .known x) :
    ∃ t, exec i s = .next t ∧ t.ls = .known .idle :=
  ⟨_, exec_of_completes hop hexp hdone hsel, rfl⟩

theorem exec_ls_of_continues (hop : operation i = .data x d c) (hexp : expects x d = true)
    (hdone : completes x d = false) (hsel : dispatchState s = .known x) :
    ∃ t, exec i s = .next t ∧ t.ls = .known x :=
  ⟨_, exec_of_continues hop hexp hdone hsel, rfl⟩

end

/-- Settles O42: both directions are the one operation of R98. -/
theorem resetConsumesOneDataRecord : Obligations.ResetConsumesOneDataRecord :=
  fun _ _ hsel => ⟨exec_of_reset rfl hsel, exec_of_reset rfl hsel⟩

/-! ### The values of the fields -/

/-- A field up to the topmost bit is what is left when the low bits are shifted out. -/
theorem field_top (s : BitString) {lo : Nat} (h : lo < s.length) : field s (s.length - 1) lo = val s / 2 ^ lo := by
  have hlen : s.length = lo + (s.length - 1 - lo + 1) := by omega
  have hval : val s < 2 ^ lo * 2 ^ (s.length - 1 - lo + 1) := by
    rw [← Nat.pow_add, ← hlen]
    exact val_lt s
  rw [field, Nat.mod_eq_of_lt (Nat.div_lt_of_lt_mul hval)]

/-- A body whose length test is passed answers its annotations. -/
theorem guard_eq_ok {α : Type} {P : Prop} [Decidable P] {e : BitfieldError} {v w : α} (hP : ¬P) (h : v = w) :
    (if P then .error e else .ok v : Except BitfieldError α) = .ok w := by
  rw [if_neg hP, h]

/-! ### BYPASS, UNKNOWN and IDCODE -/

/-- Settles O27: the body has no length test, and the table of R94 completes it. -/
theorem bypassDecoderUsesTheItemChannel : Obligations.BypassDecoderUsesTheItemChannel :=
  ⟨⟨_, rfl⟩, fun _ _ => rfl, fun _ _ => rfl, rfl, fun _ _ => exec_ls_of_completes rfl rfl rfl⟩

/-- Settles O26: the body has no length test, and the table of R94 completes it. -/
theorem unknownDecoderShowsTheBits : Obligations.UnknownDecoderShowsTheBits :=
  ⟨⟨_, rfl⟩, fun _ _ => rfl, fun _ _ => rfl, fun _ _ => exec_ls_of_completes rfl rfl rfl⟩

/-- Settles O24, by the length test of R101. The values are those of `field`; the one from bit 0 up is shifted by nothing. -/
theorem idcodeDecoderFollowsItsRule : Obligations.IdcodeDecoderFollowsItsRule := by
  unfold Obligations.IdcodeDecoderFollowsItsRule
  refine ⟨⟨_, rfl⟩, fun _ _ hshort => if_pos hshort, ?fields, fun _ _ _ _ => rfl, fun _ => ⟨rfl, rfl, rfl, rfl, rfl, rfl⟩,
    fun _ _ => exec_ls_of_completes rfl rfl rfl⟩
  rintro v r _ hlen rfl
  refine guard_eq_ok (Nat.not_lt.2 hlen) ?_
  simp only [fieldOf, field_zero]
  rfl

/-! ### ABORT -/

/-- No annotation of the answer is a warning. -/
def NoWarning (body : Except BitfieldError (List Emission)) : Prop :=
  ∀ es, body = .ok es → ∀ e ∈ es, e.ch ≠ .warning

theorem noWarning_ok {es : List Emission} (h : ∀ e ∈ es, e.ch ≠ .warning) : NoWarning (.ok es) := by
  rintro _ ⟨⟩
  exact h

theorem noWarning_guard {P : Prop} [Decidable P] {e : BitfieldError} {rest : Except BitfieldError (List Emission)}
    (h : NoWarning rest) : NoWarning (if P then .error e else rest) :=
  fun es hes => h es (guard_ok hes).2

theorem noWarning_bodyDmi (d : Dir) (c : Capture) (r : SampleRange) : NoWarning (bodyDmi d c r) := by
  unfold bodyDmi
  split
  · exact noWarning_ok (by simp [fieldOf, summary])
  · split
    · nofun
    · exact noWarning_ok (by simp [summary])

/-- R134: every body but that of ABORT emits fields, summaries and the item of BYPASS only. -/
theorem noWarning_decoderBody {x : LState} {d : Dir} (h : ¬(x = .abort ∧ d = .inbound)) (c : Capture)
    (r : SampleRange) : NoWarning (decoderBody x d c r) := by
  have hnone : NoWarning (.ok []) := noWarning_ok (by simp)
  cases x with
  | idle | reset => exact hnone
  | bypass => cases d <;> [exact noWarning_ok (by simp); exact hnone]
  | idcode => cases d <;> [exact hnone; exact noWarning_guard (noWarning_ok (by simp [fieldOf, summary]))]
  | abort => cases d <;> [exact absurd ⟨rfl, rfl⟩ h; exact hnone]
  | unknown => cases d <;> [exact noWarning_ok (by simp [summary]); exact hnone]
  | dtmcs => cases d <;> exact noWarning_guard (noWarning_ok (by simp [fieldOf, summary]))
  | dmi => exact noWarning_bodyDmi d c r
  | dpacc | apacc => cases d <;> exact noWarning_guard (noWarning_guard (noWarning_ok (by simp [fieldOf, summary])))

/-- R64, R65: a slice that a field is read from is all zero exactly if the field is 0. -/
theorem isAllZero_slice_iff {s t : BitString} {hi lo : Nat} (hlo : lo ≤ hi) (hhi : hi < s.length)
    (ht : slice s ((s.length : Int) - 1 - hi) ((s.length : Int) - lo) = .ok t) :
    isAllZero t = true ↔ field s hi lo = 0 := by
  obtain ⟨_, hslice, hlen, hvalue⟩ := fieldReadsItsSlice s hi lo hlo hhi
  obtain rfl := Except.ok.inj (ht.symm.trans hslice)
  rw [(isAllZeroTestsEveryBit t).2 (List.ne_nil_of_length_eq_add_one hlen), hvalue, Except.ok.injEq]

/-- Settles O25. The warning follows the value of the field `v[31:1]`, which is the number of the slice that R103 tests. -/
theorem abortDecoderWarnsOnReservedBits : Obligations.AbortDecoderWarnsOnReservedBits := by
  unfold Obligations.AbortDecoderWarnsOnReservedBits
  refine ⟨⟨_, rfl⟩, ?onlyAbort, fun _ _ hshort => if_pos hshort, ?fields, ?sliceTest, fun _ _ => rfl, fun _ => ⟨rfl, rfl⟩,
    fun _ _ => exec_ls_of_completes rfl rfl rfl⟩
  case onlyAbort =>
    rintro x d v r es hes ⟨e, he, hwarning⟩
    by_contra hother
    exact noWarning_decoderBody hother v r es hes e he hwarning
  case fields =>
    rintro v r _ hlen rfl
    refine guard_eq_ok (Nat.not_lt.2 hlen) ?_
    simp only [fieldOf, field_zero]
    rfl
  case sliceTest =>
    intro v t hlen ht
    refine isAllZero_slice_iff (hi := 31) (lo := 1) (by omega) (by omega) ?_
    rw [← ht]
    congr 1
    omega

/-! ### DPACC and APACC -/

/-- R107 to R110: the two length tests of an access, in their order. -/
theorem access_cases {α : Type} {body : Except BitfieldError α} {len : Nat} {v : α}
    (hbody : body = if len < 3 then .error .outOfRange else if len = 3 then .error .malformedField else .ok v) :
    (len < 3 → body = .error .outOfRange) ∧ (len = 3 → body = .error .malformedField) ∧ (3 < len → body = .ok v) := by
  subst hbody
  refine ⟨fun hshort => if_pos hshort, fun hempty => ?_, fun hlong => ?_⟩
  · rw [if_neg (by omega), if_pos hempty]
  · rw [if_neg (by omega), if_neg (by omega)]

/-- The body of an access is that of its register. -/
theorem decoderBody_access {x : LState} {reg : Symbol} (h : (x = .dpacc ∧ reg = .dpacc) ∨ (x = .apacc ∧ reg = .apacc))
    (c : Capture) (r : SampleRange) :
    decoderBody x .inbound c r = bodyAccessIn reg c r ∧ decoderBody x .outbound c r = bodyAccessOut reg c r := by
  obtain ⟨rfl, rfl⟩ | ⟨rfl, rfl⟩ := h <;> exact ⟨rfl, rfl⟩

/-- Settles O28. The data field goes up to the topmost bit, so its value needs no reduction. -/
theorem accessRequestDecoder : Obligations.AccessRequestDecoder := by
  unfold Obligations.AccessRequestDecoder
  refine ⟨⟨_, rfl⟩, ⟨_, rfl⟩, ?body, fun _ _ _ _ _ => rfl, ?rendering, fun _ _ => exec_ls_of_continues rfl rfl rfl,
    fun _ _ => exec_ls_of_continues rfl rfl rfl⟩
  case body =>
    rintro x reg hreg v r _ _ rfl rfl
    obtain ⟨hshort, hempty, hlong⟩ := access_cases (decoderBody_access hreg v r).1
    refine ⟨hshort, hempty, fun hlen => (hlong hlen).trans ?_⟩
    simp only [fieldOf, field_zero, field_top v.bits hlen]
    rfl
  case rendering => rintro _ n (rfl | rfl) <;> exact ⟨rfl, rfl, rfl⟩

/-- Settles O29, as O28, with the acknowledge map read off its two tests. -/
theorem accessResultDecoder : Obligations.AccessResultDecoder := by
  unfold Obligations.AccessResultDecoder
  refine ⟨⟨_, rfl⟩, ⟨_, rfl⟩, ?body, fun _ _ _ _ => rfl, ?rendering, rfl, rfl, ?reserved,
    fun _ _ => exec_ls_of_completes rfl rfl rfl, fun _ _ => exec_ls_of_completes rfl rfl rfl⟩
  case body =>
    rintro x reg hreg v r _ _ rfl rfl
    obtain ⟨hshort, hempty, hlong⟩ := access_cases (decoderBody_access hreg v r).2
    refine ⟨hshort, hempty, fun hlen => (hlong hlen).trans ?_⟩
    simp only [fieldOf, field_zero, field_top v.bits hlen]
    rfl
  case rendering => rintro _ n (rfl | rfl) <;> exact ⟨rfl, rfl⟩
  case reserved =>
    intro n hwait hok
    rw [ackName, if_neg hwait, if_neg hok]

/-! ### dtmcs and dmi -/

/-- Settles O30, by the length test of D20. -/
theorem dtmcsStatusDecoder : Obligations.DtmcsStatusDecoder := by
  unfold Obligations.DtmcsStatusDecoder
  refine ⟨⟨_, rfl⟩, ?body, fun _ _ _ _ => rfl, fun _ => ⟨rfl, rfl, rfl, rfl⟩,
    fun _ _ => exec_ls_of_continues rfl rfl rfl⟩
  rintro v r _ rfl
  refine ⟨fun hshort => if_pos hshort, fun hlen => guard_eq_ok (Nat.not_lt.2 hlen) ?_⟩
  simp only [fieldOf, field_zero]
  rfl

/-- Settles O31: no field starts at bit 0 or ends at the topmost bit, so each value is its quotient by definition. -/
theorem dtmcsResetDecoder : Obligations.DtmcsResetDecoder := by
  unfold Obligations.DtmcsResetDecoder
  refine ⟨⟨_, rfl⟩, ?body, fun _ _ => rfl, fun _ => ⟨rfl, rfl⟩, fun _ _ => exec_ls_of_continues rfl rfl rfl⟩
  rintro v r _ rfl
  exact ⟨fun hshort => if_pos hshort, fun hlen => guard_eq_ok (Nat.not_lt.2 hlen) rfl⟩

/-- R113: the split form, above 34 bits. -/
theorem bodyDmi_of_split (d : Dir) {c : Capture} (r : SampleRange) (h : 34 < c.bits.length) :
    bodyDmi d c r = .ok
      [fieldOf .dmi d c .address (c.bits.length - 1) 34, fieldOf .dmi d c .data 33 2, fieldOf .dmi d c .op 1 0,
       summary r (.dmiSplit d (field c.bits 1 0) (field c.bits (c.bits.length - 1) 34) (field c.bits 33 2))] :=
  if_pos h

/-- R113: the raw form, of a string that has a number. -/
theorem bodyDmi_of_raw (d : Dir) {c : Capture} (r : SampleRange) (hpos : c.bits ≠ []) (h : c.bits.length ≤ 34) :
    bodyDmi d c r = .ok [summary r (.dmiRaw d (val c.bits))] := by
  rw [bodyDmi, if_neg (Nat.not_lt.2 h), toUnsignedInt_of_ne_nil hpos]

/-- R63, R128: the empty string has none. -/
theorem bodyDmi_of_nil (d : Dir) {c : Capture} (r : SampleRange) (h : c.bits = []) :
    bodyDmi d c r = .error .malformedField := by
  rw [bodyDmi, h]
  rfl

/-- Settles O32, by the length of the capture. -/
theorem dmiDecoderSplitsAboveThirtyFourBits : Obligations.DmiDecoderSplitsAboveThirtyFourBits := by
  unfold Obligations.DmiDecoderSplitsAboveThirtyFourBits
  refine ⟨⟨_, rfl⟩, ⟨_, rfl⟩, ?body, render_defaultTxt_dmiSplit, render_defaultTxt_dmiRaw, fun _ => ⟨rfl, rfl, rfl⟩,
    fun _ _ hsel => ⟨exec_ls_of_continues rfl rfl rfl hsel, exec_ls_of_continues rfl rfl rfl hsel⟩⟩
  rintro d v r _ _ rfl rfl
  refine ⟨fun hlen => (bodyDmi_of_split d r hlen).trans ?_,
    fun hpos hlen => bodyDmi_of_raw d r (List.ne_nil_of_length_pos hpos) hlen,
    fun hempty => bodyDmi_of_nil d r (List.length_eq_zero_iff.1 hempty)⟩
  simp only [fieldOf, field_zero, field_top v.bits hlen]
  rfl

end Sys2Proof.Machine
end

section
/-! PROOFS. The Annotation Emitter (`45_emitter.md`): `emit` and `emitState` (R116, R118), the ranges of a regular scan
(R120), and the announcements along a step (R126). -/

namespace Sys2Proof.Machine

/-! ### `emit` and `emitState` -/

theorem rangeOk_iff (r : SampleRange) : rangeOk r = true ↔ r.ss < r.es :=
  decide_eq_true_iff

theorem emit_of_lt {r : SampleRange} (h : r.ss < r.es) (ch : Channel) (p : Payload) (s : State) :
    emit r ch p s = ({ s with out := s.out ++ [annotation s.cfg.txt r ch p] }, true) :=
  if_pos ((rangeOk_iff r).2 h)

theorem emit_of_le {r : SampleRange} (h : r.es ≤ r.ss) (ch : Channel) (p : Payload) (s : State) :
    emit r ch p s = (raiseInvalidRange s, false) :=
  if_neg (mt (rangeOk_iff r).1 (Nat.not_lt.2 h))

/-- Settles O21, by the range test of R116. -/
theorem emitAppendsOrRaisesTheFlag : Obligations.EmitAppendsOrRaisesTheFlag :=
  fun _ ch p s => ⟨fun h => emit_of_lt h ch p s, fun h => emit_of_le h ch p s⟩

/-- Settles O22: `emitState` tests the sentinel first, and leaves the range to `emit`. -/
theorem emitStateAnnouncesOnce : Obligations.EmitStateAnnouncesOnce := by
  unfold Obligations.EmitStateAnnouncesOnce
  refine fun r s => ⟨fun hlast => if_pos hlast, fun hlast hr => ?valid, fun hlast hr => ?invalid⟩
  case valid =>
    rw [emitState, if_neg hlast, emit_of_lt hr]
    rfl
  case invalid =>
    rw [emitState, if_neg hlast, emit_of_le hr]
    rfl

/-! ### The ranges of a regular scan -/

/-- The capture of a regular scan (R51): bit `i` of the value takes the samples from `t + p*i` to `t + p*(i+1)`. -/
def scanCapture (bits : BitString) (t p : Nat) : Capture :=
  ⟨bits, (List.range bits.length).map (fun i => ⟨t + p * i, t + p * (i + 1)⟩)⟩

theorem rawOf_scanCapture (bits : BitString) (t p : Nat) : rawOf (scanCapture bits t p) = Trace.scanAt bits t p := rfl

theorem scanCapture_wellFormed {bits : BitString} (h : bits ≠ []) (t p : Nat) :
    (scanCapture bits t p).wellFormed = true := by
  simp [Capture.wellFormed, scanCapture, h]

theorem srAt_scanCapture {bits : BitString} {i : Nat} (hi : i < bits.length) (t p : Nat) :
    srAt (scanCapture bits t p).sr i = ⟨t + p * i, t + p * (i + 1)⟩ := by
  simp [srAt, scanCapture, hi]

theorem fieldRange_scanCapture {bits : BitString} {hi lo : Nat} (hlo : lo < bits.length) (hhi : hi < bits.length)
    (t p : Nat) : fieldRange (scanCapture bits t p) hi lo = ⟨t + p * lo, t + p * (hi + 1)⟩ := by
  rw [fieldRange, srAt_scanCapture hlo, srAt_scanCapture hhi]

/-- R74: the event range goes from the first bit to the last one. -/
theorem evr_scanCapture {bits : BitString} (h : bits ≠ []) (t p : Nat) :
    evr (scanCapture bits t p) = ⟨t, t + p * bits.length⟩ := by
  have hpos : 0 < bits.length := List.length_pos_iff.2 h
  have hrange := fieldRange_scanCapture hpos (Nat.sub_lt hpos Nat.one_pos) t p
  rwa [Nat.sub_add_cancel hpos] at hrange

/-- Settles O16: the payload of a regular scan is the spelling of `scanCapture`. -/
theorem regularScanRanges : Obligations.RegularScanRanges := by
  unfold Obligations.RegularScanRanges
  intro bits t p hne
  refine ⟨scanCapture bits t p, ?_, rfl, evr_scanCapture hne t p, fun hi lo hlo hhi =>
    fieldRange_scanCapture (hlo.trans_lt hhi) hhi t p⟩
  rw [← rawOf_scanCapture]
  exact classifyCapture_rawOf (scanCapture_wellFormed hne t p)

/-! ### Announcements along a step -/

/-- The operation of each event (R71), for a DR record by the dispatch state. -/
def eventOperation (cfg : Config) (sel : Ls) : TapEvent → Operation
  | .stateChange name rng => operation (selectSt cfg name rng)
  | .irLoad c => .load (irLookup cfg c.bits).1 (evr c)
  | .drShiftIn c => dataOperation sel .inbound c
  | .drShiftOut c => dataOperation sel .outbound c

/-- A record with an event runs the operation of its event. -/
theorem recordOperation_of_classify {r : Record} {ev : TapEvent} (cfg : Config) (sel : Ls) (h : classify r = some ev) :
    recordOperation cfg sel r = eventOperation cfg sel ev := by
  cases r with
  | stateChange name rng =>
    cases h
    rfl
  | irTdo p | reserved k p => cases h
  | irTdi p | drTdi p | drTdo p =>
    cases hc : classifyCapture p with
    | error e => simp [classify, hc, Except.toOption] at h
    | ok c =>
      obtain rfl := by simpa [classify, hc, Except.toOption] using h
      simp [recordOperation, decode, hc, Except.map, eventOperation, operation_selectIr, operation_selectDri,
        operation_selectDro]

/-- The state in which the work of an event is done: the dispatch state for a DR record, `ls` for any other event. -/
def enteredState (s : State) : TapEvent → Ls
  | .stateChange _ _ => s.ls
  | .irLoad _ => s.ls
  | .drShiftIn _ => dispatchState s
  | .drShiftOut _ => dispatchState s

/-- An event has an effect, which enters that state before the body. -/
theorem exists_effect_of_event (s : State) (ev : TapEvent) :
    ∃ e, (eventOperation s.cfg (dispatchState s) ev).effect s = some e ∧ e.via = enteredState s ev := by
  have hdata (d : Dir) (c : Capture) :
      ∃ e, (dataOperation (dispatchState s) d c).effect s = some e ∧ e.via = dispatchState s := by
    cases hsel : dispatchState s <;> exact ⟨_, rfl, hsel⟩
  cases ev with
  | stateChange name rng =>
    simp only [eventOperation, selectSt]
    split <;> exact ⟨_, rfl, rfl⟩
  | irLoad c => exact ⟨_, rfl, rfl⟩
  | drShiftIn c => exact hdata .inbound c
  | drShiftOut c => exact hdata .outbound c

/-- An operation with an effect applies it. -/
theorem Operation.run_of_effect {op : Operation} {s : State} {e : Effect} (he : op.effect s = some e) :
    op.run s = e.apply s := by
  rw [op.run_eq, he]
  rfl

/-- The body of an effect is a decoder's, in every state. -/
theorem Operation.effect_bodyNotes {op : Operation} {s : State} {e : Effect} (he : op.effect s = some e) :
    ∃ c, ∀ b ∈ e.body, BodyNote c e.rng b := by
  cases op with
  | drop => cases he
  | tapReset | tapOther | load =>
    cases he
    exact ⟨⟨[], []⟩, by simp⟩
  | data x d c =>
    cases he
    exact ⟨c, dataBody_notes⟩
  | unhandled k c =>
    cases he
    exact ⟨c, List.forall_mem_singleton.2 (.event rfl (by nofun))⟩

/-- R116: a state annotation over a valid range names its state. -/
theorem stateNames_appended_note {r : SampleRange} (hr : rangeOk r = true) (t : Txt) (P : Prop) [Decidable P] (x : Ls) :
    stateNames (appended t (if P then [] else [stateNote r x])) = if P then [] else [x] := by
  split <;> simp [appended, stateNote, stateNames, annotation, hr]

/-- R126: in an announced state an effect that leaves the flag clear announces `via` and then `final`, each where it
differs from the one before. Under an invalid range both are the announced state already. -/
theorem Effect.stateNames_apply_of_announced {e : Effect} {s : State} {c : Capture} (hlast : s.last = some s.ls)
    (hflag : (e.apply s).faultIr = false) (hbody : ∀ b ∈ e.body, BodyNote c e.rng b) :
    stateNames (e.apply s).out =
      stateNames s.out ++ (if e.via = s.ls then [] else [e.via]) ++ (if e.final = e.via then [] else [e.final]) := by
  cases hr : rangeOk e.rng with
  | true =>
    simp [apply, recordEffect, wantedBy, appended_append, stateNames_append, stateNames_appended_note hr,
      stateNames_appended_body hbody, hlast]
  | false =>
    obtain ⟨hvia, hfinal⟩ := last_eq_of_no_flag hr (Bool.or_eq_false_iff.1 hflag).2
    have hsame : e.via = s.ls := Option.some.inj (hvia.symm.trans hlast)
    simp [stateNames_apply_of_not_rangeOk hr hbody, hsame, hfinal]

/-- All that a step does with a record that has an event: the effect of its operation, on the state without the record. -/
theorem exists_effect_of_step {s t : State} {r : Record} {rest : List Record} {ev : TapEvent}
    (hin : s.input = r :: rest) (hev : classify r = some ev) (hstep : step s = .next t) :
    ∃ e : Effect, t = e.apply { s with input := rest } ∧ e.via = enteredState s ev ∧
      ∃ c, ∀ b ∈ e.body, BodyNote c e.rng b := by
  obtain ⟨e, he, hvia⟩ := exists_effect_of_event { s with input := rest } ev
  rw [step_of_cons hin, recordOperation_of_classify _ _ hev] at hstep
  refine ⟨e, (Host.Outcome.next.inj hstep).symm.trans (Operation.run_of_effect he), hvia.trans ?_,
    Operation.effect_bodyNotes he⟩
  cases ev <;> rfl

/-- Settles O52: the step applies an effect whose `via` is the state that the statement names. -/
theorem stateAnnotationsFollowLs : Obligations.StateAnnotationsFollowLs := by
  unfold Obligations.StateAnnotationsFollowLs
  intro s t r rest ev via hin hev hlast hstep hflag hvia
  obtain ⟨e, rfl, heffect, c, hbody⟩ := exists_effect_of_step hin hev hstep
  obtain rfl : e.via = via := by
    rw [heffect, hvia]
    cases ev <;> rfl
  exact Effect.stateNames_apply_of_announced (s := { s with input := rest }) hlast hflag hbody

end Sys2Proof.Machine
end

section
/-! PROOFS. The channels (`45_emitter.md` R117): which annotations each decoder, each operation and each instruction
appends, and on which channel. -/

namespace Sys2Proof.Machine

/-! ### The annotations of a decoder -/

/-- The payloads that the decoder of `x` emits for a DR record: the item comes from BYPASS alone, fields from the decoders
with a layout, summaries from every decoder but BYPASS, the warning from ABORT, a degraded diagnostic from each
(R99 to R115). -/
def decoderEmits (x : LState) (d : Dir) : Payload → Bool
  | .state _ => false
  | .item _ => x == .bypass && d == .inbound
  | .field _ _ _ _ _ _ => expects x d && x != .bypass && x != .unknown
  | .cmd _ => expects x d && x != .bypass
  | .warnAbortReserved _ => x == .abort && d == .inbound
  | .degraded _ _ _ => expects x d
  | .unhandled _ => false

/-- All annotations of the answer are of the kinds that `x` emits. -/
def EmitsFor (x : LState) (d : Dir) (body : Except BitfieldError (List Emission)) : Prop :=
  ∀ es, body = .ok es → ∀ e ∈ es, decoderEmits x d e.payload = true

section

variable {x : LState} {d : Dir}

theorem emitsFor_ok {es : List Emission} (h : ∀ e ∈ es, decoderEmits x d e.payload = true) : EmitsFor x d (.ok es) := by
  rintro _ ⟨⟩
  exact h

theorem emitsFor_guard {P : Prop} [Decidable P] {e : BitfieldError} {rest : Except BitfieldError (List Emission)}
    (h : EmitsFor x d rest) : EmitsFor x d (if P then .error e else rest) :=
  fun es hes => h es (guard_ok hes).2

end

theorem emitsFor_bodyAbort (c : Capture) (r : SampleRange) : EmitsFor .abort .inbound (bodyAbort c r) := by
  refine emitsFor_guard (emitsFor_ok (List.forall_mem_append.2 ⟨by simp [fieldOf, summary, decoderEmits, expects], ?_⟩))
  split <;> simp [decoderEmits]

theorem emitsFor_bodyDmi (d : Dir) (c : Capture) (r : SampleRange) : EmitsFor .dmi d (bodyDmi d c r) := by
  by_cases hempty : c.bits = []
  · rw [bodyDmi_of_nil d r hempty]
    nofun
  obtain hraw | hsplit := le_or_gt c.bits.length 34
  · rw [bodyDmi_of_raw d r hempty hraw]
    exact emitsFor_ok (by simp [summary, decoderEmits, expects])
  · rw [bodyDmi_of_split d r hsplit]
    exact emitsFor_ok (by simp [fieldOf, summary, decoderEmits, expects])

theorem emitsFor_decoderBody (x : LState) (d : Dir) (c : Capture) (r : SampleRange) :
    EmitsFor x d (decoderBody x d c r) := by
  have hnone {x : LState} {d : Dir} : EmitsFor x d (.ok []) := emitsFor_ok (by simp)
  cases x with
  | idle | reset => exact hnone
  | bypass => cases d <;> [exact emitsFor_ok (by simp [decoderEmits]); exact hnone]
  | idcode =>
    cases d <;> [exact hnone;
      exact emitsFor_guard (emitsFor_ok (by simp [fieldOf, summary, decoderEmits, expects]))]
  | abort => cases d <;> [exact emitsFor_bodyAbort c r; exact hnone]
  | unknown => cases d <;> [exact emitsFor_ok (by simp [summary, decoderEmits, expects]); exact hnone]
  | dtmcs => cases d <;> exact emitsFor_guard (emitsFor_ok (by simp [fieldOf, summary, decoderEmits, expects]))
  | dmi => exact emitsFor_bodyDmi d c r
  | dpacc | apacc =>
    cases d <;>
      exact emitsFor_guard (emitsFor_guard (emitsFor_ok (by simp [fieldOf, summary, decoderEmits, expects])))

theorem emitsFor_tryDecode (cfg : Config) (x : LState) (d : Dir) (c : Capture) : EmitsFor x d (tryDecode cfg x d c) := by
  unfold tryDecode
  split
  · nofun
  · exact emitsFor_decoderBody x d _ _

/-- R93, R130: the decoder's annotations, or its one diagnostic. -/
theorem decoderEmits_dataBody (cfg : Config) (x : LState) (d : Dir) (c : Capture) :
    ∀ e ∈ dataBody cfg x d c, decoderEmits x d e.payload = true := by
  unfold dataBody bodyOrDegraded
  split
  next hexp =>
    split
    next es hes => exact emitsFor_tryDecode cfg x d c es hes
    next => exact List.forall_mem_singleton.2 hexp
  next => simp

/-! ### The annotations of an operation and of an instruction -/

/-- The payloads that an operation appends: state annotations from any operation, the rest from DR records. -/
def Operation.emits : Operation → Payload → Bool
  | _, .state _ => true
  | .data x d _, p => decoderEmits x d p
  | .unhandled k _, p => p == .unhandled k
  | _, _ => false

theorem Operation.emits_state (op : Operation) (x : Ls) : op.emits (.state x) = true := by
  cases op <;> rfl

theorem Operation.emits_of_decoderEmits {x : LState} {d : Dir} {p : Payload} (h : decoderEmits x d p = true)
    (c : Capture) : (Operation.data x d c).emits p = true := by
  cases p with
  | state => rfl
  | _ => exact h

theorem Operation.emits_effect_body {op : Operation} {s : State} {e : Effect} (he : op.effect s = some e) :
    ∀ b ∈ e.body, op.emits b.payload = true := by
  cases op with
  | drop => cases he
  | tapReset | tapOther | load =>
    cases he
    simp
  | data x d c =>
    cases he
    exact fun b hb => emits_of_decoderEmits (decoderEmits_dataBody s.cfg x d c b hb) c
  | unhandled k c =>
    cases he
    exact List.forall_mem_singleton.2 (beq_self_eq_true _)

/-- An operation appends annotations of its own kinds, each on the one channel of its payload (R117). -/
theorem Operation.run_out (op : Operation) (s : State) :
    ∃ new, (op.run s).out = s.out ++ new ∧ ∀ a ∈ new, a.ch = payloadChannel a.payload ∧ op.emits a.payload = true := by
  rw [op.run_eq]
  cases he : op.effect s with
  | none => exact ⟨[], (List.append_nil _).symm, by simp⟩
  | some e =>
    obtain ⟨c, hbody⟩ := effect_bodyNotes he
    refine ⟨_, rfl, ?_⟩
    have hwanted : ∀ b ∈ wantedBy s e.rng e.via e.final e.body,
        b.ch = payloadChannel b.payload ∧ op.emits b.payload = true :=
      forall_mem_wantedBy (fun x => ⟨rfl, op.emits_state x⟩)
        fun b hb => ⟨(hbody b hb).ch_eq, emits_effect_body he b hb⟩
    simp only [appended, List.mem_map, List.mem_filter]
    rintro _ ⟨b, ⟨hb, -⟩, rfl⟩
    exact hwanted b hb

/-- Settles O46: an instruction appends the kinds of its operation, and for each kind the instructions whose operation has
it are those that the statement lists. -/
theorem channelsAreFixed : Obligations.ChannelsAreFixed := by
  unfold Obligations.ChannelsAreFixed
  refine ⟨⟨rfl, rfl, rfl, rfl, rfl, rfl⟩, fun i s t hexec => ?_⟩
  obtain rfl : (operation i).run s = t := by simpa [exec_eq_run] using hexec
  obtain ⟨new, hout, hnew⟩ := (operation i).run_out s
  refine ⟨new, hout, fun a ha => ?_⟩
  obtain ⟨hch, hemits⟩ := hnew a ha
  obtain ⟨ss, es, ch, text, payload⟩ := a
  cases payload with
  | state x => exact hch
  | item b =>
    refine ⟨hch, ?_⟩
    cases i with
    | driBypass c => exact ⟨c, rfl⟩
    | _ => exact absurd hemits Bool.false_ne_true
  | field reg dir label value hi lo =>
    refine ⟨hch, ?_⟩
    cases i with
    | droIdcode | driAbort | driDpacc | droDpacc | driApacc | droApacc | driDtmcs | droDtmcs | driDmi | droDmi => trivial
    | _ => exact absurd hemits Bool.false_ne_true
  | cmd cmd =>
    refine ⟨hch, ?_⟩
    cases i with
    | droIdcode | driAbort | driUnknown | driDpacc | droDpacc | driApacc | droApacc | driDtmcs | droDtmcs | driDmi
    | droDmi => trivial
    | _ => exact absurd hemits Bool.false_ne_true
  | warnAbortReserved value =>
    refine ⟨hch, ?_⟩
    cases i with
    | driAbort c => exact ⟨c, rfl⟩
    | _ => exact absurd hemits Bool.false_ne_true
  | degraded x e b =>
    refine ⟨hch, ?_⟩
    cases i with
    | driBypass | droIdcode | driAbort | driUnknown | driDpacc | droDpacc | driApacc | droApacc | driDtmcs | droDtmcs
    | driDmi | droDmi => trivial
    | _ => exact absurd hemits Bool.false_ne_true
  | unhandled k =>
    refine ⟨hch, ?_⟩
    cases i with
    | driUnhandled j c =>
      obtain rfl : k = j := by simpa [operation, Operation.emits] using hemits
      exact ⟨c, .inl rfl⟩
    | droUnhandled j c =>
      obtain rfl : k = j := by simpa [operation, Operation.emits] using hemits
      exact ⟨c, .inr rfl⟩
    | _ => exact absurd hemits Bool.false_ne_true

end Sys2Proof.Machine
end

section
/-! PROOFS. The abnormal conditions (`60_exceptions.md`): the lengths at which a decoder raises an error (R128, R129), what
none of the conditions changes (R138), and when the flag stays as it is (R132). -/

namespace Sys2Proof.Machine

/-! ### The errors of a decoder -/

/-- The error that the decoder of `x` raises for `len` bits after stripping (R128, R129), the same in every direction that
it decodes. -/
def lengthError (x : LState) (len : Nat) : Option BitfieldError :=
  match x with
  | .idle | .reset | .bypass | .unknown => none
  | .idcode | .abort => if len < 32 then some .outOfRange else none
  | .dtmcs => if len < 18 then some .outOfRange else none
  | .dpacc | .apacc => if len < 3 then some .outOfRange else if len = 3 then some .malformedField else none
  | .dmi => if len = 0 then some .malformedField else none

section

variable {α : Type} {e : BitfieldError}

theorem ok_eq_error_iff (v : α) : (.ok v : Except BitfieldError α) = .error e ↔ none = some e := by
  simp

/-- A length test raises its own error, or leaves the matter to the rest of the body. -/
theorem guard_eq_error_iff {P : Prop} [Decidable P] {e' : BitfieldError} {rest : Except BitfieldError α}
    {err : Option BitfieldError} (h : rest = .error e ↔ err = some e) :
    (if P then .error e' else rest) = .error e ↔ (if P then some e' else err) = some e := by
  split
  · simp
  · exact h

end

theorem bodyDmi_eq_error_iff (d : Dir) (c : Capture) (r : SampleRange) (e : BitfieldError) :
    bodyDmi d c r = .error e ↔ lengthError .dmi c.bits.length = some e := by
  by_cases hempty : c.bits = []
  · rw [bodyDmi_of_nil d r hempty, hempty]
    simp [lengthError]
  have hnone : lengthError .dmi c.bits.length = none := if_neg (mt List.length_eq_zero_iff.1 hempty)
  rw [hnone]
  obtain hraw | hsplit := le_or_gt c.bits.length 34
  · rw [bodyDmi_of_raw d r hempty hraw]
    exact ok_eq_error_iff _
  · rw [bodyDmi_of_split d r hsplit]
    exact ok_eq_error_iff _

/-- In a direction that the decoder of `x` decodes, the length alone decides about its error. -/
theorem decoderBody_eq_error_iff {x : LState} {d : Dir} (hexp : expects x d = true) (c : Capture) (r : SampleRange)
    (e : BitfieldError) : decoderBody x d c r = .error e ↔ lengthError x c.bits.length = some e := by
  cases x with
  | idle | reset => cases hexp
  | bypass | unknown => cases d <;> [exact ok_eq_error_iff _; cases hexp]
  | idcode => cases d <;> [cases hexp; exact guard_eq_error_iff (ok_eq_error_iff _)]
  | abort => cases d <;> [exact guard_eq_error_iff (ok_eq_error_iff _); cases hexp]
  | dtmcs => cases d <;> exact guard_eq_error_iff (ok_eq_error_iff _)
  | dpacc | apacc => cases d <;> exact guard_eq_error_iff (guard_eq_error_iff (ok_eq_error_iff _))
  | dmi => exact bodyDmi_eq_error_iff d c r e

/-- R93: the strip count is tested first, then the body sees what remains. -/
theorem tryDecode_eq_error_iff {x : LState} {d : Dir} (hexp : expects x d = true) (cfg : Config) (c : Capture)
    (e : BitfieldError) :
    tryDecode cfg x d c = .error e ↔
      (if c.bits.length < cfg.leadStrip.get x then some .outOfRange
        else lengthError x (c.bits.length - cfg.leadStrip.get x)) = some e := by
  split
  case isTrue hshort =>
    rw [tryDecode_of_length_lt hshort]
    simp
  case isFalse hlong =>
    rw [tryDecode_of_le_length (Nat.not_lt.1 hlong), decoderBody_eq_error_iff hexp, List.length_drop]

theorem lengthError_eq_outOfRange_iff (x : LState) (len : Nat) :
    lengthError x len = some .outOfRange ↔
      (x = .idcode ∧ len < 32) ∨ (x = .abort ∧ len < 32) ∨ (x = .dpacc ∧ len < 3) ∨ (x = .apacc ∧ len < 3) ∨
        (x = .dtmcs ∧ len < 18) := by
  cases x <;> simp [lengthError]

theorem lengthError_eq_malformedField_iff (x : LState) (len : Nat) :
    lengthError x len = some .malformedField ↔ ((x = .dpacc ∨ x = .apacc) ∧ len = 3) ∨ (x = .dmi ∧ len = 0) := by
  cases x with
  | dpacc | apacc => by_cases hempty : len = 3 <;> simp [lengthError, hempty]
  | _ => simp [lengthError]

/-- Settles O34: a capture below the strip count raises it, any other one where `lengthError` does. -/
theorem outOfRangeExactlyBelowTheMinimumLengths : Obligations.OutOfRangeExactlyBelowTheMinimumLengths := by
  unfold Obligations.OutOfRangeExactlyBelowTheMinimumLengths
  rintro cfg x d c _ _ hexp rfl rfl
  rw [tryDecode_eq_error_iff hexp, ← lengthError_eq_outOfRange_iff]
  split <;> simp [*]

/-- Settles O35: a capture below the strip count never raises it, any other one where `lengthError` does. -/
theorem malformedFieldExactlyWhereAFieldIsEmpty : Obligations.MalformedFieldExactlyWhereAFieldIsEmpty := by
  unfold Obligations.MalformedFieldExactlyWhereAFieldIsEmpty
  rintro cfg x d c _ _ hexp rfl rfl
  rw [tryDecode_eq_error_iff hexp, ← lengthError_eq_malformedField_iff, ← Nat.not_lt]
  split <;> simp [*]

/-! ### What no condition changes -/

theorem exists_step_eq_next (s : State) : ∃ t, step s = .next t := by
  rcases hin : s.input with _ | ⟨r, rest⟩
  · exact ⟨s, step_of_nil hin⟩
  · exact ⟨_, step_of_cons hin⟩

/-- R13: no operation reads the flag. -/
theorem Operation.run_with_faultIr (op : Operation) (s : State) (flag : Bool) :
    { op.run { s with faultIr := flag } with faultIr := (op.run s).faultIr } = op.run s := by
  have heffect : op.effect { s with faultIr := flag } = op.effect s := by cases op <;> rfl
  rw [op.run_eq, op.run_eq, heffect]
  cases op.effect s with
  | none => rfl
  | some e => rfl

/-- No step reads the flag. -/
theorem step_with_faultIr {s t : State} (flag : Bool) (hstep : step s = .next t) :
    ∃ t', step { s with faultIr := flag } = .next t' ∧ { t' with faultIr := t.faultIr } = t := by
  obtain ⟨hin, rfl⟩ | ⟨r, rest, hin, rfl⟩ := step_eq_next hstep
  · exact ⟨_, step_of_nil hin, rfl⟩
  · exact ⟨_, step_of_cons (s := { s with faultIr := flag }) hin,
      Operation.run_with_faultIr _ { s with input := rest } flag⟩

/-- Two states agree on all but the sentinel, the flag and the trace. -/
structure State.Agrees (s s' : State) : Prop where
  cfg : s'.cfg = s.cfg
  ls : s'.ls = s.ls
  irsym : s'.irsym = s.irsym
  armed : s'.armed = s.armed
  input : s'.input = s.input

section

variable {s s' : State} (h : s.Agrees s')
include h

theorem State.Agrees.dispatchState_eq : dispatchState s' = dispatchState s := by
  simp only [dispatchState, h.armed, h.irsym, h.ls]

theorem State.Agrees.with_input (rest : List Record) : State.Agrees { s with input := rest } { s' with input := rest } :=
  { h with input := rfl }

/-- The effect of an operation is read off the configuration and the three registers of the tracker. -/
theorem State.Agrees.effect_eq (op : Operation) : op.effect s' = op.effect s := by
  cases op <;> simp only [Operation.effect, h.cfg, h.ls, h.irsym, h.armed, h.dispatchState_eq]

theorem State.Agrees.run (op : Operation) : (op.run s).Agrees (op.run s') := by
  rw [op.run_eq, op.run_eq, h.effect_eq]
  cases op.effect s with
  | none => exact h
  | some e => exact ⟨h.cfg, rfl, rfl, rfl, h.input⟩

theorem State.Agrees.step {t t' : State} (hstep : step s = .next t) (hstep' : step s' = .next t') : t.Agrees t' := by
  rcases hin : s.input with _ | ⟨r, rest⟩
  · rw [step_of_nil hin] at hstep
    rw [step_of_nil (h.input.trans hin)] at hstep'
    cases hstep
    cases hstep'
    exact h
  · have hop : recordOperation s'.cfg (dispatchState s') r = recordOperation s.cfg (dispatchState s) r := by
      rw [h.cfg, h.dispatchState_eq]
    rw [step_of_cons hin] at hstep
    rw [step_of_cons (h.input.trans hin), hop] at hstep'
    cases hstep
    cases hstep'
    exact (h.with_input rest).run _

end

/-- The DR rows of the transition table are those of the completion table (R94) and of Reset (R98). -/
theorem lsAfterData_eq_lsAfterDr (x : LState) (d : Dir) : lsAfterData (.known x) x d = lsAfterDr d (.known x) := by
  cases x <;> cases d <;> rfl

/-- R92, R94, R95: what a DR record does to the tracker, whatever becomes of its decode. -/
theorem dataOperation_run_tracker (d : Dir) (c : Capture) (s : State) :
    ((dataOperation (dispatchState s) d c).run s).ls = lsAfterDr d (dispatchState s) ∧
      ((dataOperation (dispatchState s) d c).run s).irsym = s.irsym ∧
      ((dataOperation (dispatchState s) d c).run s).armed = false := by
  cases hsel : dispatchState s with
  | known x =>
    rw [dataOperation, Operation.run, dispatchDr_eq, hsel]
    exact ⟨lsAfterData_eq_lsAfterDr x d, rfl, rfl⟩
  | spare k =>
    rw [dataOperation, Operation.run, dispatchUnhandled_eq, hsel]
    exact ⟨by cases d <;> rfl, rfl, rfl⟩

/-- Settles O48: every instruction runs an operation, and an operation is its effect, which neither the flag nor the trace
nor the sentinel reaches; for a DR record the effect leaves the tracker as the table says. -/
theorem noCauseHaltsTheCore : Obligations.NoCauseHaltsTheCore := by
  unfold Obligations.NoCauseHaltsTheCore
  refine ⟨fun i s => ⟨_, exec_eq_run i s⟩, exists_step_eq_next, fun s t flag => step_with_faultIr flag, ?agree, ?data⟩
  case agree =>
    intro s s' t t' hcfg hls hirsym harmed hinput hstep hstep'
    obtain ⟨hcfg', hls', hirsym', harmed', hinput'⟩ :=
      State.Agrees.step ⟨hcfg, hls, hirsym, harmed, hinput⟩ hstep hstep'
    exact ⟨hcfg', hls', hirsym', harmed', hinput'⟩
  case data =>
    intro s t r rest c d hin hev hstep
    rw [step_of_cons hin, recordOperation_of_classify _ _ hev] at hstep
    cases hstep
    cases d with
    | inbound => exact dataOperation_run_tracker .inbound c { s with input := rest }
    | outbound => exact dataOperation_run_tracker .outbound c { s with input := rest }

/-! ### The flag under valid ranges -/

/-- Settles O55: the record's operation has operands with valid ranges, and so asks for valid ranges only. -/
theorem validRangesNeverRaiseTheFlag : Obligations.ValidRangesNeverRaiseTheFlag := by
  unfold Obligations.ValidRangesNeverRaiseTheFlag
  intro s t r rest hin hr hstep
  rw [step_of_cons hin] at hstep
  cases hstep
  exact (recordOperation_rangesOk s.cfg (dispatchState s) hr).run_faultIr { s with input := rest }

end Sys2Proof.Machine
end

section
/-! PROOFS. The transition table (`43_tracker.md` section 5), and the DR records that a completed selection ignores
(`70_reset_and_hazards.md` R147). -/

namespace Sys2Proof.Machine

/-- With a record waiting that has an event, a step takes it and runs the operation of its event. -/
theorem step_of_classify {s : State} {r : Record} {rest : List Record} {ev : TapEvent} (hin : s.input = r :: rest)
    (hev : classify r = some ev) :
    step s = .next ((eventOperation s.cfg (dispatchState s) ev).run { s with input := rest }) := by
  rw [step_of_cons hin, recordOperation_of_classify _ _ hev]

/-! ### The transition table -/

/-- The registers that the transition table speaks of (R9 to R11). -/
def State.tracker (s : State) : Ls × Symbol × Bool :=
  (s.ls, s.irsym, s.armed)

/-- An operation leaves the tracker as its effect says; a dropped record leaves it as it is. -/
theorem Operation.run_tracker (op : Operation) (s : State) :
    (op.run s).tracker = (op.effect s).elim s.tracker (fun e => (e.final, e.irsym, e.armed)) := by
  rw [op.run_eq]
  cases op.effect s <;> rfl

/-- The rows of the transition table: the reset name or another one, a continuous or a one-shot symbol, a DR record by
its dispatch state. -/
theorem eventOperation_run_tracker (ev : TapEvent) (s : State) :
    ((eventOperation s.cfg (dispatchState s) ev).run s).tracker = trackerAfter s.cfg s.ls s.irsym s.armed ev := by
  have hdata (d : Dir) (c : Capture) :
      ((dataOperation (dispatchState s) d c).run s).tracker = (lsAfterDr d (dispatchState s), s.irsym, false) := by
    obtain ⟨hls, hirsym, harmed⟩ := dataOperation_run_tracker d c s
    rw [State.tracker, hls, hirsym, harmed]
  cases ev with
  | stateChange name rng =>
    rw [Operation.run_tracker]
    by_cases h : name = s.cfg.resetName <;>
      simp [eventOperation, selectSt, operation, Operation.effect, State.tracker, trackerAfter, h]
  | irLoad c =>
    rw [Operation.run_tracker]
    cases h : (irLookup s.cfg c.bits).1 <;>
      simp [eventOperation, Operation.effect, oneShot, stateOf, trackerAfter, h]
  | drShiftIn c => exact hdata .inbound c
  | drShiftOut c => exact hdata .outbound c

/-- Settles O49: the step runs the operation of the event, and that is the table's row for it. -/
theorem transitionTableHolds : Obligations.TransitionTableHolds := by
  unfold Obligations.TransitionTableHolds
  intro s r rest ev hin hev
  exact ⟨_, step_of_classify hin hev, eventOperation_run_tracker ev { s with input := rest }⟩

/-! ### A spent selection -/

/-- R80, R92: with `ls` announced and nothing owed, a DR record enters no state and announces none. -/
theorem enterDr_of_announced {s : State} (hlast : s.last = some s.ls) (harmed : s.armed = false) (r : SampleRange) :
    enterDr r s = s := by
  simp [enterDr, emitState, owedTransition, hlast, harmed]

/-- R97: in an announced Idle with nothing owed, a DR record of either direction does nothing. -/
theorem dispatchDr_idle_of_announced {s : State} (hls : s.ls = .known .idle) (hlast : s.last = some (.known .idle))
    (harmed : s.armed = false) (d : Dir) (c : Capture) : dispatchDr .idle d c s = s := by
  rw [dispatchDr_ignored .idle d c s rfl (by decide),
    enterDr_of_announced (hlast.trans (congrArg some hls.symm)) harmed]

/-- Settles O51: the record is dispatched in Idle, where it does nothing. -/
theorem aCompletedSelectionIsSpent : Obligations.ACompletedSelectionIsSpent := by
  unfold Obligations.ACompletedSelectionIsSpent
  intro s r rest c hls harmed hlast hin hev
  have hsel : dispatchState s = .known .idle := by simp [dispatchState, harmed, hls]
  have hidle (d : Dir) : (dataOperation (dispatchState s) d c).run { s with input := rest } =
      { s with input := rest } := by
    rw [hsel]
    exact dispatchDr_idle_of_announced (s := { s with input := rest }) hls hlast harmed d c
  obtain hev | hev := hev
  · rw [step_of_classify hin hev, eventOperation, hidle]
  · rw [step_of_classify hin hev, eventOperation, hidle]

end Sys2Proof.Machine
end
